-- ==== Sys2Proof/Word.lean ====
section
/-! DEFINITION. The words of the block (spec/00_scope.md R5 `REG_W`, `ADDR_W`; R6), the three access sizes of a
transaction (spec/30_encoding.md R50) and the names of the six registers (spec/20_memory.md R32). -/

namespace Sys2Proof

/-- A 32-bit word: a register, an address, a value on the data bus (R5). -/
abbrev Word := BitVec 32
/-- The 16-bit divisor register (R19). -/
abbrev Half := BitVec 16
/-- One byte of data (R17). -/
abbrev Byte := BitVec 8
/-- One 4-bit group of the pin register (R13). -/
abbrev Nibble := BitVec 4
/-- A command word: one bus transaction (R50). -/
abbrev Command := BitVec 67

/-- The size of a transaction: the three values of SIZE that spell one (R50). -/
inductive Size where
  | byte | half | word
deriving DecidableEq, Repr

/-- The six registers of the address map (R32). -/
inductive Reg where
  | clk | pin | sr | dr | brr | cr
deriving DecidableEq, Repr

end Sys2Proof
end

