-- ==== Sys2Proof/Config.lean ====
section
/-! DEFINITION. The parameters of spec/00_scope.md R5 and the values the spec leaves open.
A parameter the spec marks `default [gk]` has that default here (log entries 1 to 4); a value it leaves to a draw,
to the schedule or to nobody is an opaque constant: nothing can be proved of which value it is. -/

namespace Sys2Proof

/-- Who moves next (R9): the bus master, the transmit engine, or the environment applying reset (R170). -/
inductive Event where
  | busMaster | engine | reset
deriving DecidableEq, Repr, Inhabited

namespace Config

-- PRESUMED (unsafe, log entry 1): the addresses are the spec's defaults from general knowledge.
/-- `CLK_ADDR` (R5, R32). -/
def clkAddr : Word := 0x40021018
/-- `PIN_ADDR` (R5, R32). -/
def pinAddr : Word := 0x40010804
/-- `SR_ADDR` (R5, R32). -/
def srAddr : Word := 0x40013800
/-- `DR_ADDR` (R5, R32). -/
def drAddr : Word := 0x40013804
/-- `BRR_ADDR` (R5, R32). -/
def brrAddr : Word := 0x40013808
/-- `CR_ADDR` (R5, R32). -/
def crAddr : Word := 0x4001380C

-- PRESUMED (unsafe, log entry 2): the bit positions are the spec's defaults from general knowledge.
/-- `GPIO_EN_BIT` (R5, R53). -/
def gpioEnBit : Nat := 2
/-- `UART_EN_BIT` (R5, R53). -/
def uartEnBit : Nat := 14
/-- `AUX_EN_BIT` (R5, R53). -/
def auxEnBit : Nat := 0
/-- `TX_GROUP` (R5, R54). -/
def txGroup : Nat := 1
/-- `TXE_BIT` (R5, R55). -/
def txeBit : Nat := 7
/-- `UE_BIT` (R5, R56). -/
def ueBit : Nat := 13
/-- `TE_BIT` (R5, R56). -/
def teBit : Nat := 3

/-- `AF_PP`, the one group value with a meaning (R5, R14; sourced). -/
def afPp : Nibble := 0b1011

-- PRESUMED (unsafe, log entry 3): the family's value, the default of an open parameter.
/-- `PIN_RESET` (R5, R26). -/
def pinReset : Word := 0x44444444

-- DESIGN CHOICE (safe, log entry 4): the spec's decision D19.
/-- `BRR_MIN` (R5). -/
def brrMin : Nat := 16

/-- `F_CLK` in Hz (R5; sourced). -/
def fClk : Nat := 8000000
/-- `BAUD` (R5; sourced). -/
def baud : Nat := 9600
/-- `MESSAGE`, the twelve bytes of R142 (R5; sourced). -/
def message : List Byte :=
  [0x68, 0x65, 0x6C, 0x6C, 0x6F, 0x6B, 0x69, 0x74, 0x74, 0x79, 0x0D, 0x0A]

-- FREE VALUES (safe, log entries 6, 7, 13 and 15).
/-- `DELAY_COUNT`: open, no value in any source (R5, R140). -/
opaque delayCount : Nat
/-- `SR_OTHER`: the n-th draw for the bits of SR other than TXE (R5, R90). -/
opaque srOther : Nat → Word
/-- `DR_READ`: the n-th draw for a read of DR (R5, R93). -/
opaque drRead : Nat → Word
/-- The level of the transmit pin in a clock period in which the spec gives it none, drawn anew at each moment of
observation (R85): the first argument numbers the observation, the second the clock period in it. -/
opaque pinLevel : Nat → Nat → Bool
/-- The n-th choice of who moves next, where the state's list of events is at its end (R27, R47). -/
opaque schedule : Nat → Event

end Config
end Sys2Proof
end

