-- ==== Sys2Proof/Machine/Operands.lean ====
section
/-! DEFINITION. Operand forms: sizes and byte ranges of a transaction (spec/20_memory.md R33 to R36), the masks the
operations use (spec/30_encoding.md R57), and the fields of a written or read register value (R53 to R56). -/

namespace Sys2Proof.Machine

/-- The size of a transaction in bytes (R51). -/
def sizeBytes : Size → Nat
  | .byte => 1
  | .half => 2
  | .word => 4

/-- The address of a register (R32). -/
def regAddr : Reg → Word
  | .clk => Config.clkAddr
  | .pin => Config.pinAddr
  | .sr => Config.srAddr
  | .dr => Config.drAddr
  | .brr => Config.brrAddr
  | .cr => Config.crAddr

/-- The registers of the address map (R32). -/
def allRegs : List Reg := [.clk, .pin, .sr, .dr, .brr, .cr]

/-- The byte range `[a, a+n-1]` meets the four bytes of the register at `r`; a range that would pass the top of the
address space meets none (R32, R51 (2)). -/
def rangeMeets (a : Word) (n : Nat) (r : Word) : Bool :=
  decide (a.toNat + n ≤ 2 ^ 32) && decide (a.toNat ≤ r.toNat + 3) && decide (r.toNat < a.toNat + n)

/-- The byte range of a transaction overlaps some register (R36, R39 step 1). -/
def overlapsRegister (a : Word) (sz : Size) : Bool :=
  allRegs.any fun r => rangeMeets a (sizeBytes sz) (regAddr r)

/-- The register whose own address is `a` (R59). -/
def regAt (a : Word) : Option Reg :=
  allRegs.find? fun r => regAddr r == a

/-- The value of a write of `n` bytes: the low `8n` bits of WDATA (R50). -/
def transferValue (sz : Size) (wdata : Word) : Word :=
  match sz with
  | .byte => (wdata.extractLsb' 0 8).setWidth 32
  | .half => (wdata.extractLsb' 0 16).setWidth 32
  | .word => wdata

/-- The word with only bit `k` set. -/
def bitMask (k : Nat) : Word := 1#32 <<< k

/-- `CLK_MASK` (R57 (a)). -/
def clkMask : Word := bitMask Config.gpioEnBit ||| bitMask Config.uartEnBit ||| bitMask Config.auxEnBit
/-- `GRP_MASK` (R57 (b)). -/
def grpMask : Word := 0xF#32 <<< (4 * Config.txGroup)
/-- `GRP_AF_PP` (R57 (b)). -/
def grpAfPp : Word := Config.afPp.setWidth 32 <<< (4 * Config.txGroup)
/-- `UE` (R57 (d)). -/
def ueMask : Word := bitMask Config.ueBit
/-- `TE` (R57 (d)). -/
def teMask : Word := bitMask Config.teBit
/-- `TXE` (R5). -/
def txeMask : Word := bitMask Config.txeBit

/-- Group `g` of a pin register value, `PIN[4g+3:4g]` (R13, R54). -/
def pinGroup (v : Word) (g : Nat) : Nibble := v.extractLsb' (4 * g) 4
/-- MODE of a group (R14). -/
def groupMode (g : Nibble) : BitVec 2 := g.extractLsb' 0 2
/-- CNF of a group (R14). -/
def groupCnf (g : Nibble) : BitVec 2 := g.extractLsb' 2 2

/-- The byte a write of DR carries, `WDATA[7:0]` (R55, R92). -/
def drByte (wdata : Word) : Byte := wdata.extractLsb' 0 8
/-- A 1 in a reserved bit of a write of DR, `WDATA[31:8]` (R55, R92). -/
def drReserved (wdata : Word) : Bool := wdata.extractLsb' 8 24 != 0

/-- The divisor a write of BRR carries, `WDATA[15:0]` (R56, R95). -/
def brrField (wdata : Word) : Half := wdata.extractLsb' 0 16
/-- A 1 in a reserved bit of a write of BRR, `WDATA[31:16]` (R56, R95). -/
def brrReserved (wdata : Word) : Bool := wdata.extractLsb' 16 16 != 0
/-- BRR.MANT (R19). -/
def brrMant (v : Half) : BitVec 12 := v.extractLsb' 4 12
/-- BRR.FRAC (R19). -/
def brrFrac (v : Half) : Nibble := v.extractLsb' 0 4

/-- `ue'` of a write of CR (R97). -/
def crUe (wdata : Word) : Bool := wdata.getLsbD Config.ueBit
/-- `te'` of a write of CR (R97). -/
def crTe (wdata : Word) : Bool := wdata.getLsbD Config.teBit
/-- A 1 in a reserved bit of a write of CR (R56, R97). -/
def crReserved (wdata : Word) : Bool := wdata &&& ~~~(ueMask ||| teMask) != 0
/-- A bit in its place: `b << k` for a one-bit `b`. -/
def bitIn (b : Bool) (k : Nat) : Word := if b then bitMask k else 0
/-- What a read of CR returns (R96). -/
def crValue (ue te : Bool) : Word := bitIn ue Config.ueBit ||| bitIn te Config.teBit

/-- What a read of SR returns: the draw with bit TXE replaced (R90). -/
def srValue (draw : Word) (txe : Bool) : Word := (draw &&& ~~~txeMask) ||| bitIn txe Config.txeBit

/-- The byte of a register value at offset `k` from the register's address: little-endian (R35). -/
def registerByte (v : Word) (k : Nat) : Byte := v.extractLsb' (8 * k) 8

end Sys2Proof.Machine
end

