-- ==== Sys2Proof/Syntax.lean ====
section
/-! DEFINITION. The instructions: the fourteen bus operations of spec/30_encoding.md R59 and R58, one constructor per
row of spec/opcode_table.json. A read has no operand, for its WDATA takes no part (R51 (4)). -/

namespace Sys2Proof

/-- One bus transaction (R2). -/
inductive Instr where
  /-- CLK.RD (R70) -/
  | clkRd
  /-- CLK.WR (R71) -/
  | clkWr (wdata : Word)
  /-- PIN.RD (R80) -/
  | pinRd
  /-- PIN.WR (R81) -/
  | pinWr (wdata : Word)
  /-- SR.RD (R90) -/
  | srRd
  /-- SR.WR (R91) -/
  | srWr (wdata : Word)
  /-- DR.WR (R92) -/
  | drWr (wdata : Word)
  /-- DR.RD (R93) -/
  | drRd
  /-- BRR.RD (R94) -/
  | brrRd
  /-- BRR.WR (R95) -/
  | brrWr (wdata : Word)
  /-- CR.RD (R96) -/
  | crRd
  /-- CR.WR (R97) -/
  | crWr (wdata : Word)
  /-- UNMAPPED.RD: `MemRead(addr, n)` that reaches no register (R36, R58) -/
  | unmappedRd (size : Size) (addr : Word)
  /-- UNMAPPED.WR: `MemWrite(addr, n, v)` that reaches no register; the value in the low `8n` bits of `wdata` (R36, R58) -/
  | unmappedWr (size : Size) (addr wdata : Word)
deriving DecidableEq, Repr

end Sys2Proof
end

