-- ==== Sys2Proof/WellFormed.lean ====
section
/-! DEFINITION. Which instruction terms spell a transaction: a fallback operation reaches no register
(spec/30_encoding.md R58), and the value it writes fits its size (R50). -/

namespace Sys2Proof

/-- The term is one that a command word can spell (R50, R58). -/
def Instr.wellFormed : Instr → Bool
  | .unmappedRd sz a => !Machine.overlapsRegister a sz
  | .unmappedWr sz a v => !Machine.overlapsRegister a sz && Machine.transferValue sz v == v
  | _ => true

/-- The register the instruction accesses, if it reaches one (R59, R58). -/
def Instr.register : Instr → Option Reg
  | .clkRd | .clkWr _ => some .clk
  | .pinRd | .pinWr _ => some .pin
  | .srRd | .srWr _ => some .sr
  | .drRd | .drWr _ => some .dr
  | .brrRd | .brrWr _ => some .brr
  | .crRd | .crWr _ => some .cr
  | .unmappedRd _ _ | .unmappedWr _ _ _ => none

/-- The instruction is a write, W = 1 (R50). -/
def Instr.isWrite : Instr → Bool
  | .clkWr _ | .pinWr _ | .srWr _ | .drWr _ | .brrWr _ | .crWr _ | .unmappedWr _ _ _ => true
  | .clkRd | .pinRd | .srRd | .drRd | .brrRd | .crRd | .unmappedRd _ _ => false

end Sys2Proof
end

