-- ==== Sys2Proof/Decode.lean ====
section
/-! DEFINITION. Command words (spec/30_encoding.md R50), decoding them (R51, R58, R59, with steps 1 to 3 of
spec/20_memory.md R39) and, from the same tables, encoding an instruction. -/

namespace Sys2Proof

/-- Why a command word is no instruction. -/
inductive DecodeError where
  /-- SIZE = 0b11 spells no transaction (R51 (1)). -/
  | reservedEncoding
  /-- One or two bytes that overlap a register (R33). -/
  | badAccessSize
  /-- Four bytes that overlap a register and do not start at its address (R34). -/
  | misaligned
deriving DecidableEq, Repr

/-- The 67-bit command word with the four fields of R50 (and, wire by wire, of R52). -/
def commandWord (size : BitVec 2) (write : Bool) (addr wdata : Word) : Command :=
  size ++ BitVec.ofBool write ++ addr ++ wdata

/-- SIZE, bits `[66:65]` (R50). -/
def sizeField (c : Command) : BitVec 2 := c.extractLsb' 65 2
/-- W, bit `[64]` (R50). -/
def writeField (c : Command) : Bool := c.getLsbD 64
/-- ADDR, bits `[63:32]` (R50). -/
def addrField (c : Command) : Word := c.extractLsb' 32 32
/-- WDATA, bits `[31:0]` (R50). -/
def dataField (c : Command) : Word := c.extractLsb' 0 32

/-- SIZE of a transaction of this size (R50). -/
def sizeCode : Size → BitVec 2
  | .byte => 0b00
  | .half => 0b01
  | .word => 0b10

/-- The size that a SIZE field spells, if it spells one (R50, R51). -/
def sizeOfCode (b : BitVec 2) : Option Size :=
  if b = 0b00 then some .byte
  else if b = 0b01 then some .half
  else if b = 0b10 then some .word
  else none

/-- The register operation selected by a register and W (R59). -/
def registerOp (r : Reg) (write : Bool) (wdata : Word) : Instr :=
  match r, write with
  | .clk, false => .clkRd
  | .clk, true => .clkWr wdata
  | .pin, false => .pinRd
  | .pin, true => .pinWr wdata
  | .sr, false => .srRd
  | .sr, true => .srWr wdata
  | .dr, false => .drRd
  | .dr, true => .drWr wdata
  | .brr, false => .brrRd
  | .brr, true => .brrWr wdata
  | .cr, false => .crRd
  | .cr, true => .crWr wdata

/-- The fallback operation (R58). -/
def fallbackOp (sz : Size) (write : Bool) (addr wdata : Word) : Instr :=
  if write then .unmappedWr sz addr (Machine.transferValue sz wdata) else .unmappedRd sz addr

/-- A transaction whose range overlaps a register: size, then alignment, then the operation map (R39, R59).
The register addresses are word aligned (R5), so a word access that overlaps one and is at no register's own address
is a misaligned one. -/
def decodeRegister (sz : Size) (write : Bool) (addr wdata : Word) : Except DecodeError Instr :=
  match sz with
  | .word =>
    match Machine.regAt addr with
    | some r => .ok (registerOp r write wdata)
    | none => .error .misaligned
  | .byte => .error .badAccessSize
  | .half => .error .badAccessSize

/-- Decoding (R51): total on command words, each that is no instruction rejected by name. -/
def decode (c : Command) : Except DecodeError Instr :=
  match sizeOfCode (sizeField c) with
  | none => .error .reservedEncoding
  | some sz =>
    if Machine.overlapsRegister (addrField c) sz then
      decodeRegister sz (writeField c) (addrField c) (dataField c)
    else .ok (fallbackOp sz (writeField c) (addrField c) (dataField c))

/-- The word read of a register (R59). -/
def readCommand (r : Reg) : Command := commandWord 0b10 false (Machine.regAddr r) 0
/-- The word write of a register (R59). -/
def writeCommand (r : Reg) (wdata : Word) : Command := commandWord 0b10 true (Machine.regAddr r) wdata

/-- The canonical command word of an instruction (R50, R58, R59). -/
def encode : Instr → Command
  | .clkRd => readCommand .clk
  | .clkWr v => writeCommand .clk v
  | .pinRd => readCommand .pin
  | .pinWr v => writeCommand .pin v
  | .srRd => readCommand .sr
  | .srWr v => writeCommand .sr v
  | .drWr v => writeCommand .dr v
  | .drRd => readCommand .dr
  | .brrRd => readCommand .brr
  | .brrWr v => writeCommand .brr v
  | .crRd => readCommand .cr
  | .crWr v => writeCommand .cr v
  | .unmappedRd sz a => commandWord (sizeCode sz) false a 0
  | .unmappedWr sz a v => commandWord (sizeCode sz) true a v

/-- The command word of an opcode-table row given as `nbits` bits of `w`: bits from `nbits` on are 0, and bits from 67
on (the padding of whole bytes) are no part of a command word (log entry 19). -/
def commandOfTable (nbits w : Nat) : Command := BitVec.ofNat 67 (w % 2 ^ nbits)

/-- The instruction the decoder reads from an opcode-table row's word. -/
def decodeTableWord (nbits w : Nat) : Option Instr :=
  (decode (commandOfTable nbits w)).toOption

end Sys2Proof
end

