-- ==== Sys2Proof/Machine/State.lean ====
section
/-! DEFINITION. The state: the tuple of spec/10_state.md R10, then the bus master's position in its program and the
inputs of the step that R27 names, as plain data; the reasons of spec/60_exceptions.md R151; the state after reset. -/

namespace Sys2Proof.Machine

/-- A frame record (R18): the byte sent, the divisor it is sent at, and whether it was on the pin all the time. -/
structure Frame where
  data : Byte
  brr  : Half
  ok   : Bool
deriving DecidableEq, Repr

/-- The closed list of `Undefined` reasons (R151), recorded in FAULT by `raise`. -/
inductive Reason where
  /-- UNMAPPED.RD, UNMAPPED.WR (R36) -/
  | unmappedAddress
  /-- a 1- or 2-byte access that overlaps a register (R33) -/
  | badAccessSize
  /-- a misaligned 4-byte access that overlaps a register (R34) -/
  | misaligned
  /-- an access to a register whose peripheral clock is off (R38) -/
  | gatedAccess
  /-- a 1 in a reserved bit: DR.WR, BRR.WR, CR.WR (R92, R95, R97) -/
  | reservedBitSet
  /-- BRR.WR with UE = 1 (R95) -/
  | brrWriteWhileEnabled
  /-- DR.WR with UE = 0 or TE = 0 (R92) -/
  | dataWriteTxDisabled
  /-- DR.WR with TXE = 0 (R92) -/
  | dataWriteNotReady
  /-- DR.WR with BRR below BRR_MIN (R92) -/
  | badDivisor
  /-- CR.WR that clears UE or TE with a byte inside (R97) -/
  | disableWhileBusy
deriving DecidableEq, Repr

/-- What stops a run. -/
inductive Fault where
  /-- FAULT is set: "no rule gives the run any further meaning" (R23). Raised by every instruction and every step from
  a state whose FAULT is set, with the reason recorded there. Safe: the model stops where hardware may go on (R152). -/
  | undefined (r : Reason)
deriving DecidableEq, Repr

/-- What is rejected before it runs. -/
inductive Refusal where
  /-- An instruction that has no meaning yet, rejected by `exec`. Safe: the model stops. -/
  | notModelled (mnemonic : String)
  /-- SIZE = 0b11 spells no transaction (R51 (1)). Raised by the bus master's step when it comes to such a
  command word (log entry 27). Safe: the model stops, where "the run does not begin" (R153 (c)). -/
  | reservedEncoding
  /-- `brr_of` is not defined for the operands of UART_SETUP (R126). Raised when such a driver operation is started,
  before any transaction. Safe: "the run does not begin" (R153 (c)). -/
  | divisorUndefined
deriving DecidableEq, Repr

/-- The bus master's temporaries (R7, R24). -/
inductive Temp where
  | t0 | t1
deriving DecidableEq, Repr

/-- The value a driver operation writes (R57, R63): a constant, `t & ~m`, or `t | m`. -/
inductive Source where
  | lit (v : Word)
  | clear (t : Temp) (m : Word)
  | set (t : Temp) (m : Word)
deriving DecidableEq, Repr

/-- One operation of the bus master's program: a transaction, or one of the control forms of R146 and R134. -/
inductive BusOp where
  /-- issue the transaction of this command word (R50) -/
  | issue (c : Command)
  /-- `t <- RD reg` (R62) -/
  | rd (t : Temp) (r : Reg)
  /-- `WR reg, v` (R62) -/
  | wr (r : Reg) (v : Source)
  /-- `if t0[TXE_BIT] = 0 then goto L`, with L this many operations back (R130) -/
  | backUnlessTxe (back : Nat)
  /-- `if t0[TXE_BIT] = b then goto L`, with L this many operations ahead: only in the optional bounded poll (R134) -/
  | aheadIfTxe (b : Bool) (ahead : Nat)
  /-- the empty loop of DELAY (R140) -/
  | delay (n : Nat)
  /-- the unconditional backward branch of MAIN, this many operations back (R142) -/
  | back (n : Nat)
deriving DecidableEq, Repr

/-- The state of the machine. The first nine fields are the tuple of R10, CR as its two bits. -/
structure State where
  /-- CLK (R11) -/
  clk    : Word
  /-- PIN (R13) -/
  pin    : Word
  /-- BRR (R19) -/
  brr    : Half
  /-- CR.UE (R20) -/
  ue     : Bool
  /-- CR.TE (R20) -/
  te     : Bool
  /-- TDR (R17) -/
  tdr    : Option Byte
  /-- TSR (R18) -/
  tsr    : Option Frame
  /-- TXLOG, oldest first (R21) -/
  txlog  : List Frame
  /-- FAULT (R23) -/
  fault  : Option Reason
  /-- RDATA, the result of the latest read transaction (R50) -/
  rdata  : Word
  /-- the program the bus master runs (R27) -/
  prog   : List BusOp
  /-- the bus master's position in it (R25) -/
  pos    : Nat
  /-- the temporary t0 (R7) -/
  t0     : Word
  /-- the temporary t1 (R7) -/
  t1     : Word
  /-- iterations done of the DELAY being run (R140) -/
  spin   : Nat
  /-- the schedule: who moves next, soonest first (R27, R47) -/
  events : List Event
  /-- how many choices of the free schedule have been used (the model's own) -/
  turns  : Nat
  /-- how many draws have been used (the model's own) -/
  draws  : Nat
deriving DecidableEq, Repr

/-- The state right after reset at the start of a run (R26): nothing sent, no fault, and nothing yet loaded into the
bus master. The fields after `fault` are the model's own values (DESIGN CHOICE, log entries 6 to 9). -/
def State.reset : State where
  clk    := 0
  pin    := Config.pinReset
  brr    := 0
  ue     := false
  te     := false
  tdr    := none
  tsr    := none
  txlog  := []
  fault  := none
  rdata  := 0
  prog   := []
  pos    := 0
  t0     := 0
  t1     := 0
  spin   := 0
  events := []
  turns  := 0
  draws  := 0

/-- What an instruction or a step answers. -/
abbrev Result := Host.Outcome State Fault Refusal

end Sys2Proof.Machine
end

