-- ==== Sys2Proof/Machine/Flags.lean ====
section
/-! DEFINITION. What is computed from the registers and held nowhere: the enable bits of CLK (spec/10_state.md R11),
the flag TXE (R16), and `pin_visible()` (spec/41_pin_configurator.md R85). -/

namespace Sys2Proof.Machine

/-- CLK.GPIO_EN (R11). -/
def State.gpioEn (s : State) : Bool := s.clk.getLsbD Config.gpioEnBit
/-- CLK.UART_EN (R11). -/
def State.uartEn (s : State) : Bool := s.clk.getLsbD Config.uartEnBit
/-- CLK.AUX_EN (R11). -/
def State.auxEn (s : State) : Bool := s.clk.getLsbD Config.auxEnBit
/-- PIN.TXG (R13). -/
def State.txg (s : State) : Nibble := pinGroup s.pin Config.txGroup

/-- TXE: 1 exactly when TDR is empty (R16). -/
def State.txe (s : State) : Bool := s.tdr.isNone

/-- `pin_visible()` (R85). -/
def State.pinVisible (s : State) : Bool :=
  s.txg == Config.afPp && s.gpioEn && s.uartEn && s.auxEn

/-- A byte is waiting or on the line: `TDR != none or TSR != none` (R97). -/
def State.busy (s : State) : Bool := s.tdr.isSome || s.tsr.isSome

/-- The common part of the engine's enabling conditions: `CLK.UART_EN = 1 and CR.UE = 1 and CR.TE = 1` (R110, R111). -/
def State.engineOn (s : State) : Bool := s.uartEn && s.ue && s.te

/-- A frame's mark cleared (R86, R172). -/
def Frame.spoil (f : Frame) : Frame := { f with ok := false }

end Sys2Proof.Machine
end

