-- ==== Sys2Proof/Machine/Ops.lean ====
section
/-! DEFINITION. The named operations over the state's registers and buffers, and the shared parts of every
transaction: FAULT ends the run (spec/10_state.md R23), `raise Undefined(r)` (spec/60_exceptions.md R151, R157), one
check of a transaction (spec/20_memory.md R39). There is no return from `raise`: nothing is ever entered (R158). -/

namespace Sys2Proof.Machine

/-- Write register CLK. -/
def State.setClk (s : State) (v : Word) : State := { s with clk := v }
/-- Write register PIN. -/
def State.setPin (s : State) (v : Word) : State := { s with pin := v }
/-- Write register BRR. -/
def State.setBrr (s : State) (v : Half) : State := { s with brr := v }
/-- Write the two bits of register CR. -/
def State.setCr (s : State) (ue te : Bool) : State := { s with ue := ue, te := te }
/-- Fill or empty the transmit data register. -/
def State.setTdr (s : State) (b : Option Byte) : State := { s with tdr := b }
/-- Fill or empty the transmit shift register. -/
def State.setTsr (s : State) (f : Option Frame) : State := { s with tsr := f }
/-- Append frame records to TXLOG. -/
def State.appendLog (s : State) (fs : List Frame) : State := { s with txlog := s.txlog ++ fs }
/-- Record FAULT. -/
def State.setFault (s : State) (r : Reason) : State := { s with fault := some r }
/-- Answer a read transaction. -/
def State.setRdata (s : State) (v : Word) : State := { s with rdata := v }
/-- One draw has been used. -/
def State.nextDraw (s : State) : State := { s with draws := s.draws + 1 }
/-- Move the bus master to a position, at the start of the operation there. -/
def State.goto (s : State) (p : Nat) : State := { s with pos := p, spin := 0 }
/-- One more iteration of the DELAY being run. -/
def State.spinOnce (s : State) : State := { s with spin := s.spin + 1 }
/-- Assign a temporary of the bus master. -/
def State.setTemp (s : State) (t : Temp) (v : Word) : State :=
  match t with
  | .t0 => { s with t0 := v }
  | .t1 => { s with t1 := v }
/-- Read a temporary of the bus master. -/
def State.temp (s : State) (t : Temp) : Word :=
  match t with
  | .t0 => s.t0
  | .t1 => s.t1

/-- `raise Undefined(r)`: FAULT becomes `r` and nothing else changes (R151, R157). -/
def raise (r : Reason) (s : State) : Result := .next (s.setFault r)

/-- No rule gives a run any meaning once FAULT is set (R23). -/
def unlessFaulted (s : State) (k : Result) : Result :=
  match s.fault with
  | some r => .fault (.undefined r)
  | none => k

/-- One check of a transaction: the first that fails decides, later ones are not made (R39). -/
def check (bad : Bool) (r : Reason) (s : State) (k : Result) : Result :=
  if bad then raise r s else k

/-- A transaction on a gated register: the gate is its first check after decoding (R38, R39 step 4). -/
def gated (enabled : Bool) (s : State) (k : Result) : Result :=
  unlessFaulted s (check (!enabled) .gatedAccess s k)

/-- After CLK or PIN has changed: a frame in TSR loses its mark if the pin is not visible now (R86). -/
def State.watchPin (s : State) : State :=
  if s.pinVisible then s else s.setTsr (s.tsr.map Frame.spoil)

end Sys2Proof.Machine
end

