-- ==== Sys2Proof/Machine/Clock.lean ====
section
/-! DEFINITION. The clock control register (spec/40_clock_enabler.md). -/

namespace Sys2Proof.Machine

/-- CLK.RD (R70): never gated (R37). -/
def execClkRd (s : State) : Result :=
  unlessFaulted s (.next (s.setRdata s.clk))

/-- CLK.WR (R71). -/
def execClkWr (wdata : Word) (s : State) : Result :=
  unlessFaulted s (.next (s.setClk wdata).watchPin)

end Sys2Proof.Machine
end

