-- ==== Sys2Proof/Machine/Pin.lean ====
section
/-! DEFINITION. The pin control register (spec/41_pin_configurator.md). -/

namespace Sys2Proof.Machine

/-- PIN.RD (R80). -/
def execPinRd (s : State) : Result :=
  gated s.gpioEn s (.next (s.setRdata s.pin))

/-- PIN.WR (R81). -/
def execPinWr (wdata : Word) (s : State) : Result :=
  gated s.gpioEn s (.next (s.setPin wdata).watchPin)

end Sys2Proof.Machine
end

