-- ==== Sys2Proof/Machine/Serial.lean ====
section
/-! DEFINITION. The serial peripheral's registers (spec/42_serial_registers.md). -/

namespace Sys2Proof.Machine

/-- SR.RD (R90): a fresh draw with bit TXE replaced. FREE VALUE (safe, log entry 7). -/
def execSrRd (s : State) : Result :=
  gated s.uartEn s (.next (s.setRdata (srValue (Config.srOther s.draws) s.txe)).nextDraw)

/-- SR.WR (R91): accepted, no effect, whatever the value. -/
def execSrWr (_wdata : Word) (s : State) : Result :=
  gated s.uartEn s (.next s)

/-- DR.WR (R92): the checks in the order its rule lists them, then the byte waits in TDR. -/
def execDrWr (wdata : Word) (s : State) : Result :=
  gated s.uartEn s <|
  check (drReserved wdata) .reservedBitSet s <|
  check (!(s.ue && s.te)) .dataWriteTxDisabled s <|
  check (!s.txe) .dataWriteNotReady s <|
  check (decide (s.brr.toNat < Config.brrMin)) .badDivisor s <|
  .next (s.setTdr (some (drByte wdata)))

/-- DR.RD (R93): a fresh draw; TDR is not touched. FREE VALUE (safe, log entry 7). -/
def execDrRd (s : State) : Result :=
  gated s.uartEn s (.next (s.setRdata (Config.drRead s.draws)).nextDraw)

/-- BRR.RD (R94). -/
def execBrrRd (s : State) : Result :=
  gated s.uartEn s (.next (s.setRdata (s.brr.setWidth 32)))

/-- BRR.WR (R95). -/
def execBrrWr (wdata : Word) (s : State) : Result :=
  gated s.uartEn s <|
  check (brrReserved wdata) .reservedBitSet s <|
  check s.ue .brrWriteWhileEnabled s <|
  .next (s.setBrr (brrField wdata))

/-- CR.RD (R96). -/
def execCrRd (s : State) : Result :=
  gated s.uartEn s (.next (s.setRdata (crValue s.ue s.te)))

/-- CR.WR (R97). -/
def execCrWr (wdata : Word) (s : State) : Result :=
  gated s.uartEn s <|
  check (crReserved wdata) .reservedBitSet s <|
  check (s.busy && !(crUe wdata && crTe wdata)) .disableWhileBusy s <|
  .next (s.setCr (crUe wdata) (crTe wdata))

end Sys2Proof.Machine
end

