-- ==== Sys2Proof/Machine/Unmapped.lean ====
section
/-! DEFINITION. The fallback operations: a transaction that reaches no register (spec/20_memory.md R36,
spec/30_encoding.md R58). -/

namespace Sys2Proof.Machine

/-- UNMAPPED.RD (R36). -/
def execUnmappedRd (_size : Size) (_addr : Word) (s : State) : Result :=
  unlessFaulted s (raise .unmappedAddress s)

/-- UNMAPPED.WR (R36). -/
def execUnmappedWr (_size : Size) (_addr _wdata : Word) (s : State) : Result :=
  unlessFaulted s (raise .unmappedAddress s)

end Sys2Proof.Machine
end

