-- ==== Sys2Proof/Machine/Dispatch.lean ====
section
/-! DEFINITION. One arm per instruction. -/

namespace Sys2Proof.Machine

def exec (i : Instr) (s : State) : Host.Outcome State Fault Refusal :=
  match i with
  | .clkRd => Sys2Proof.Machine.execClkRd s
  | .clkWr wdata => Sys2Proof.Machine.execClkWr wdata s
  | .pinRd => Sys2Proof.Machine.execPinRd s
  | .pinWr wdata => Sys2Proof.Machine.execPinWr wdata s
  | .srRd => Sys2Proof.Machine.execSrRd s
  | .srWr wdata => Sys2Proof.Machine.execSrWr wdata s
  | .drWr wdata => Sys2Proof.Machine.execDrWr wdata s
  | .drRd => Sys2Proof.Machine.execDrRd s
  | .brrRd => Sys2Proof.Machine.execBrrRd s
  | .brrWr wdata => Sys2Proof.Machine.execBrrWr wdata s
  | .crRd => Sys2Proof.Machine.execCrRd s
  | .crWr wdata => Sys2Proof.Machine.execCrWr wdata s
  | .unmappedRd size addr => Sys2Proof.Machine.execUnmappedRd size addr s
  | .unmappedWr size addr wdata => Sys2Proof.Machine.execUnmappedWr size addr wdata s

end Sys2Proof.Machine
end

