-- ==== Sys2Proof/Machine/Divisor.lean ====
section
/-! DEFINITION. The divisor arithmetic of the driver (spec/44_serial_driver_ops.md R125, R126), on unbounded naturals. -/

namespace Sys2Proof.Machine

/-- `floor((2f + b) / (2b))`: `f / b` rounded half up, the normative form of R125. -/
def roundedDivisor (f b : Nat) : Nat := (2 * f + b) / (2 * b)

/-- The mantissa before a carry: `floor(D)`, with `D = f / (16 b)` (R125). -/
def rawMantissa (f b : Nat) : Nat := f / (16 * b)
/-- The fraction before a carry: `round_half_up((D - floor(D)) * 16)` (R125). -/
def rawFraction (f b : Nat) : Nat := (2 * (f % (16 * b)) + b) / (2 * b)
/-- The first form of R125: mantissa and fraction rounded apart, a fraction of 16 carried into the mantissa. -/
def packedDivisor (f b : Nat) : Nat :=
  if rawFraction f b = 16 then (rawMantissa f b + 1) <<< 4
  else rawMantissa f b <<< 4 ||| rawFraction f b

/-- `brr_of(f, b)`, where it is defined (R125, R126 (c), (d), (f)). -/
def brrOf (f b : Nat) : Option Half :=
  if f = 0 ∨ b = 0 then none
  else if Config.brrMin ≤ roundedDivisor f b ∧ roundedDivisor f b ≤ 0xFFFF then
    some (BitVec.ofNat 16 (roundedDivisor f b))
  else none

end Sys2Proof.Machine
end

