-- ==== Sys2Proof/Machine/Driver.lean ====
section
/-! DEFINITION. The eight driver operations (spec/30_encoding.md R63), and the optional bounded poll
(spec/44_serial_driver_ops.md R134), as programs of the bus master. They are the
host's, not hardware (spec/45_main_loop.md): nothing here is reached by an instruction. -/

namespace Sys2Proof.Machine

/-- The driver operations (R63), and the optional bounded poll (R134). -/
inductive DriverOp where
  | clockEnable
  | pinConfig
  | uartSetup (f b : Nat)
  | sendByte (c : Byte)
  | sendByteBounded (c : Byte) (m : Nat)
  | sendString (s : List Byte)
  | delay (n : Nat)
  | init
  | main
deriving DecidableEq, Repr

/-- CLOCK_ENABLE: one read-modify-write (R72). -/
def clockEnableOps : List BusOp :=
  [.rd .t0 .clk, .wr .clk (.set .t0 clkMask)]

/-- The three-step variant of CLOCK_ENABLE, the bits in the order given (R74). -/
def clockEnableStepwise (bits : List Nat) : List BusOp :=
  bits.flatMap fun k => [.rd .t0 .clk, .wr .clk (.set .t0 (bitMask k))]

/-- PIN_CONFIG: clear the group, then set it (R82). -/
def pinConfigOps : List BusOp :=
  [.rd .t0 .pin, .wr .pin (.clear .t0 grpMask), .rd .t1 .pin, .wr .pin (.set .t1 grpAfPp)]

/-- UART_SETUP with this divisor (R128). -/
def uartSetupOps (divisor : Half) : List BusOp :=
  [.rd .t0 .cr, .wr .cr (.clear .t0 ueMask), .wr .brr (.lit (divisor.setWidth 32)),
   .rd .t1 .cr, .wr .cr (.set .t1 (teMask ||| ueMask))]

/-- SEND_BYTE: poll SR until TXE reads 1, then write the byte (R130). -/
def sendByteOps (c : Byte) : List BusOp :=
  [.rd .t0 .sr, .backUnlessTxe 1, .wr .dr (.lit (c.setWidth 32))]

/-- SEND_BYTE_BOUNDED: SEND_BYTE with at most `m` reads of SR, which ends without the write where none returned TXE = 1
(R134). -/
def sendByteBoundedOps (c : Byte) : Nat → List BusOp
  | 0 => []
  | 1 => [.rd .t0 .sr, .aheadIfTxe false 2, .wr .dr (.lit (c.setWidth 32))]
  | m + 2 => [.rd .t0 .sr, .aheadIfTxe true (2 * m + 3)] ++ sendByteBoundedOps c (m + 1)

/-- What SEND_BYTE_BOUNDED reports at its end: success, if its last read returned TXE = 1 (R134). -/
def State.boundedSent (m : Nat) (s : State) : Bool := m != 0 && s.t0.getLsbD Config.txeBit

/-- SEND_STRING: SEND_BYTE for each byte up to and not including the terminator 0x00 (R132, D23). -/
def sendStringOps (s : List Byte) : List BusOp :=
  (s.takeWhile fun c => c != 0).flatMap sendByteOps

/-- INIT with this divisor (R141). -/
def initOps (divisor : Half) : List BusOp :=
  clockEnableOps ++ pinConfigOps ++ uartSetupOps divisor

/-- One pass of MAIN's loop and the branch back to its start (R142). -/
def mainLoopOps : List BusOp :=
  let body := sendStringOps Config.message ++ [.delay Config.delayCount]
  body ++ [.back body.length]

/-- The expansion of a driver operation; none where `brr_of` is not defined for its operands (R63, R126). -/
def DriverOp.expand : DriverOp → Option (List BusOp)
  | .clockEnable => some clockEnableOps
  | .pinConfig => some pinConfigOps
  | .uartSetup f b => (brrOf f b).map uartSetupOps
  | .sendByte c => some (sendByteOps c)
  | .sendByteBounded c m => some (sendByteBoundedOps c m)
  | .sendString s => some (sendStringOps s)
  | .delay n => some [.delay n]
  | .init => (brrOf Config.fClk Config.baud).map initOps
  | .main => (brrOf Config.fClk Config.baud).map fun d => initOps d ++ mainLoopOps

/-- Give the bus master a program, from outside the machine (R27). -/
def State.load (p : List BusOp) (s : State) : State := { s with prog := p, pos := 0, spin := 0 }

/-- Start a driver operation; refused before any transaction where its divisor is undefined (R126, R153 (c)). -/
def State.startDriver (d : DriverOp) (s : State) : Result :=
  match d.expand with
  | some p => .next (s.load p)
  | none => .refused .divisorUndefined

end Sys2Proof.Machine
end

