-- ==== Sys2Proof/Machine/Engine.lean ====
section
/-! DEFINITION. The transmit engine (spec/43_transmit_engine.md): its two steps, each with its enabling condition. -/

namespace Sys2Proof.Machine

/-- TX_LOAD (R110), if it is enabled. -/
def State.txLoad (s : State) : Option State :=
  match s.engineOn, s.tdr, s.tsr with
  | true, some b, none => some ((s.setTsr (some ⟨b, s.brr, s.pinVisible⟩)).setTdr none)
  | _, _, _ => none

/-- TX_DONE (R111), if it is enabled. -/
def State.txDone (s : State) : Option State :=
  match s.engineOn, s.tsr with
  | true, some f => some ((s.appendLog [f]).setTsr none)
  | _, _ => none

/-- The engine's turn: its enabled step, of which there is at most one (TX_LOAD needs TSR empty, TX_DONE needs it
occupied); with none enabled the line idles and nothing changes (R112). DESIGN CHOICE (safe, log entry 11). -/
def State.engineStep (s : State) : State :=
  match s.txLoad, s.txDone with
  | some t, _ => t
  | none, some t => t
  | none, none => s

end Sys2Proof.Machine
end

