-- ==== Sys2Proof/Machine/Reset.lean ====
section
/-! DEFINITION. Reset applied by the environment while the block runs (spec/70_reset_and_hazards.md R170 to R172). -/

namespace Sys2Proof.Machine

/-- The effect of reset on the block (R171, R172): a frame in TSR is logged with its mark cleared, a byte in TDR is
lost, TXLOG and FAULT are kept. -/
def State.resetBlock (s : State) : State :=
  { s.appendLog (s.tsr.map Frame.spoil).toList with
    clk := 0
    pin := Config.pinReset
    brr := 0
    ue  := false
    te  := false
    tdr := none
    tsr := none }

/-- A reset step: the block is reset and the bus master starts its program again from the beginning (R170). Its
temporaries keep what they hold. DESIGN CHOICE (unsafe, log entry 9). -/
def State.environmentReset (s : State) : State := s.resetBlock.goto 0

end Sys2Proof.Machine
end

