-- ==== Sys2Proof/Machine/BusMaster.lean ====
section
/-! DEFINITION. The bus master's step (spec/20_memory.md R30, R41; spec/45_main_loop.md R146), and what one event of
the schedule does (spec/20_memory.md R47, spec/70_reset_and_hazards.md R170). -/

namespace Sys2Proof.Machine

/-- The value a driver operation writes (R57, R63). -/
def Source.value (v : Source) (s : State) : Word :=
  match v with
  | .lit w => w
  | .clear t m => s.temp t &&& ~~~m
  | .set t m => s.temp t ||| m

/-- The command word an operation issues, if it issues one (R50, R62). -/
def BusOp.command (op : BusOp) (s : State) : Option Command :=
  match op with
  | .issue c => some c
  | .rd _ r => some (readCommand r)
  | .wr r v => some (writeCommand r (v.value s))
  | .backUnlessTxe _ => none
  | .aheadIfTxe _ _ => none
  | .delay _ => none
  | .back _ => none

/-- One transaction (R51): a word that is no instruction is refused, or raises the reason of its kind (R33, R34).
A word with SIZE = 0b11 is refused when the bus master comes to it: of such a word behind other transactions R153 (c)
says only that the run does not begin, and here the transactions before it are carried out. DESIGN CHOICE (safe, log
entry 27). -/
def transaction (c : Command) (s : State) : Result :=
  match decode c with
  | .ok i => exec i s
  | .error .reservedEncoding => .refused .reservedEncoding
  | .error .badAccessSize => unlessFaulted s (raise .badAccessSize s)
  | .error .misaligned => unlessFaulted s (raise .misaligned s)

/-- A read's result goes to the operation's temporary (R62). -/
def BusOp.receive (op : BusOp) (s : State) : State :=
  match op with
  | .rd t _ => s.setTemp t s.rdata
  | .issue _ | .wr _ _ | .backUnlessTxe _ | .aheadIfTxe _ _ | .delay _ | .back _ => s

/-- The bus master after its transaction: it takes the result and moves on; a transaction that raised changes nothing
beside FAULT (R157), so the bus master stays at it. DEDUCED (safe, log entry 20). -/
def BusOp.complete (op : BusOp) (r : Result) : Result :=
  match r with
  | .next t => if t.fault.isSome then .next t else .next ((op.receive t).goto (t.pos + 1))
  | .fault f => .fault f
  | .refused f => .refused f

/-- Where a control form of R146 or R134 leaves the bus master when it is done, with `v` in t0 and the form at `p`; a
transaction is no control form. -/
def BusOp.leave (op : BusOp) (v : Word) (p : Nat) : Option Nat :=
  match op with
  | .backUnlessTxe n => some (if v.getLsbD Config.txeBit then p + 1 else p - n)
  | .aheadIfTxe b n => some (p + if v.getLsbD Config.txeBit = b then n else 1)
  | .delay _ => some (p + 1)
  | .back n => some (p - n)
  | .issue _ | .rd _ _ | .wr _ _ => none

/-- Iterations of the operation that are still to be done (R140). -/
def BusOp.spinning (op : BusOp) (s : State) : Bool :=
  match op with
  | .delay n => decide (s.spin < n)
  | .issue _ | .rd _ _ | .wr _ _ | .backUnlessTxe _ | .aheadIfTxe _ _ | .back _ => false

/-- One turn of a control form (R146, R134), which issues no transaction. -/
def BusOp.control (op : BusOp) (s : State) : State :=
  match op.leave s.t0 s.pos with
  | some p => if op.spinning s then s.spinOnce else s.goto p
  | none => s

/-- From position `p` with `v` in t0, control forms alone take the bus master past the end of its program, at most `k`
of them. -/
def endsQuietly (prog : List BusOp) (v : Word) : Nat → Nat → Bool
  | 0, p => prog[p]?.isNone
  | k + 1, p =>
    match prog[p]? with
    | none => true
    | some op => (op.leave v p).any (endsQuietly prog v k)

/-- One operation of the bus master's program. -/
def BusOp.run (op : BusOp) (s : State) : Result :=
  match op.command s with
  | some c => op.complete (transaction c s)
  | none => .next (op.control s)

/-- The bus master's turn: the operation at its position; past the end of its program it issues nothing. DESIGN CHOICE
(safe, log entry 11). -/
def busStep (s : State) : Result :=
  match s.prog[s.pos]? with
  | some op => op.run s
  | none => .next s

/-- Who moves next (R27): the head of the list of events, and a free choice at its end. FREE VALUE (safe, log entry 6). -/
def State.nextEvent (s : State) : Event :=
  match s.events with
  | e :: _ => e
  | [] => Config.schedule s.turns

/-- The state once that choice has been used. -/
def State.tookEvent (s : State) : State :=
  match s.events with
  | _ :: es => { s with events := es }
  | [] => { s with turns := s.turns + 1 }

/-- What an event does. -/
def runEvent (e : Event) (s : State) : Result :=
  match e with
  | .busMaster => busStep s
  | .engine => .next s.engineStep
  | .reset => .next s.environmentReset

/-- `RD @addr` of a size (R62). -/
def readAt (sz : Size) (addr : Word) : BusOp := .issue (commandWord (sizeCode sz) false addr 0)
/-- `WR @addr, v` of a size (R62). -/
def writeAt (sz : Size) (addr v : Word) : BusOp := .issue (commandWord (sizeCode sz) true addr v)

/-- A state whose next step is the bus master's, and whose program is the one transaction of this command word (log
entry 10). -/
def State.placeCommand (c : Command) (s : State) : State :=
  { s.load [.issue c] with events := .busMaster :: s.events }

end Sys2Proof.Machine
end

