-- ==== Sys2Proof/Machine/Step.lean ====
section
/-! DEFINITION. One step of the machine: the next event of the schedule, unless FAULT is set (spec/10_state.md R23,
spec/00_scope.md R8). -/

namespace Sys2Proof.Machine

/-- One atomic step of one agent (R8, R9). -/
def step (s : State) : Host.Outcome State Fault Refusal :=
  unlessFaulted s (runEvent s.nextEvent s.tookEvent)

/-- The state whose next step fetches and runs the instruction of an opcode-table row's word. -/
def State.withFetchWord (s : State) (nbits w : Nat) : State :=
  s.placeCommand (commandOfTable nbits w)

end Sys2Proof.Machine
end

