-- ==== Sys2Proof/Machine/Line.lean ====
section
/-! DEFINITION. The serial line and the transmit pin as functions of the state (spec/43_transmit_engine.md R116 to
R118), and the timing that spec/70_reset_and_hazards.md R183, R184 derive from a frame's divisor. Informative: no step
depends on anything here. -/

namespace Sys2Proof.Machine

/-- The ten bits of a byte's frame in time order: start bit, data least significant bit first, stop bit (R116). -/
def frameBits (b : Byte) : List Bool :=
  false :: ((List.range 8).map fun k => b.getLsbD k) ++ [true]

/-- One bit period in clock periods (R183). -/
def bitPeriod (brr : Half) : Nat := brr.toNat
/-- One frame time in clock periods (R184). -/
def frameTime (brr : Half) : Nat := 10 * bitPeriod brr
/-- The baud rate a clock of `f` Hz produces (R183, R118 (b)). -/
def baudRate (f : Nat) (brr : Half) : Rat := f / brr.toNat

/-- What the serial line carries. -/
inductive Line where
  /-- idle, at `idleLevel` (R117) -/
  | idle
  /-- these bits in this order, each for this many clock periods (R117) -/
  | frame (bits : List Bool) (period : Nat)
deriving DecidableEq, Repr

/-- A frame as it stands on the line (R117). -/
def Frame.line (f : Frame) : Line := .frame (frameBits f.data) (bitPeriod f.brr)

/-- The level of the idle line (R117). PRESUMED (unsafe, log entry 16). -/
def idleLevel : Bool := true

/-- The level of the line in clock period `n` of what it carries, `n` counted from 0: an idle line is at its level all
the time, a frame holds each bit in turn for its period (R117). Behind a frame's last bit there is no period of it. -/
def Line.levelAt (l : Line) (n : Nat) : Option Bool :=
  match l with
  | .idle => some idleLevel
  | .frame bits period => if n < bits.length * period then bits[n / period]? else none

/-- The serial line now (R117). -/
def State.line (s : State) : Line :=
  match s.tsr with
  | none => .idle
  | some f => f.line

/-- The line that the transmit pin shows now: the serial line while the pin is visible, and no line otherwise (R85). -/
def State.txPin (s : State) : Option Line :=
  if s.pinVisible then some s.line else none

/-- The level of a pin in clock period `n` of an observation: that of the line it shows, and any value where it shows
none or the line has no such period (R85, R117). FREE VALUE (safe, log entry 15). -/
def pinLevelAt (observation : Nat) (shown : Option Line) (n : Nat) : Bool :=
  (shown.bind fun l => l.levelAt n).getD (Config.pinLevel observation n)

/-- The level of the transmit pin now, seen from its clock period `n` (R85, R117). -/
def State.txLevelAt (observation : Nat) (s : State) (n : Nat) : Bool := pinLevelAt observation s.txPin n

/-- The line that the pin showed while this logged frame was sent: none if its mark is cleared (R118 (a), R86). -/
def Frame.shown (f : Frame) : Option Line := if f.ok then some f.line else none

/-- The level of the transmit pin in clock period `n` of a logged frame (R118 (a)). -/
def Frame.levelAt (observation : Nat) (f : Frame) (n : Nat) : Bool := pinLevelAt observation f.shown n

/-- What the log says was on the pin, frame by frame: a frame whose mark is cleared is a stretch of time in which the
pin is undefined (R118 (a)). -/
def waveform (log : List Frame) : List (Option Line) :=
  log.map Frame.shown

/-- The bytes seen on the pin, in order (R118 (a)). -/
def bytesSeen (log : List Frame) : List Byte :=
  (log.filter fun f => f.ok).map fun f => f.data

end Sys2Proof.Machine
end

