-- ==== Sys2Proof/Safety.lean ====
section
/-! DEFINITION. What counts as a safe run, in the terms the claims use: a run without FAULT (spec/10_state.md R23), its
end (spec/43_transmit_engine.md R118, spec/60_exceptions.md R153), the invariants of the block (spec/10_state.md R22,
spec/41_pin_configurator.md R86), the order of the bytes (spec/43_transmit_engine.md R113). -/

namespace Sys2Proof.Safety

open Sys2Proof.Machine

/-- The bus master has finished: its position is past the end of its program (R153 (b)). DESIGN CHOICE (safe, log entry
26). -/
def programOver (s : State) : Bool := (s.prog[s.pos]?).isNone

/-- The bus master has issued its last transaction (R118 (c)): from here its program comes to its end by control forms
alone, and a DELAY or a branch may still be before it. As many forms as the program has operations are enough, for a
program that comes back to a position stays in a loop. DEDUCED (safe, log entry 26). -/
def issuedLast (s : State) : Bool := endsQuietly s.prog s.t0 s.prog.length s.pos

/-- A final state (R118 (c)). -/
def final (s : State) : Bool := issuedLast s && !s.busy && s.fault.isNone

/-- A stuck state (R153 (b)): the bus master has finished, a byte is inside, the serial clock is off. -/
def stuck (s : State) : Bool := programOver s && s.busy && !s.uartEn && s.fault.isNone

/-- The invariant of R22: a byte inside means the transmitter is on and the divisor can time it. -/
abbrev BusyMeansEnabled (s : State) : Prop :=
  s.busy = true → s.ue = true ∧ s.te = true ∧ Config.brrMin ≤ s.brr.toNat

/-- The mark of the frame on the line says the pin is visible now (R86). -/
abbrev MarkMeansVisible (s : State) : Prop :=
  ∀ f, s.tsr = some f → f.ok = true → s.pinVisible = true

/-- The frame on the line has the divisor that BRR holds (R110 (b), with R22 and R95). -/
abbrev LineHasDivisor (s : State) : Prop :=
  ∀ f, s.tsr = some f → f.brr = s.brr

/-- Every frame logged had a divisor that can time it. -/
abbrev LogTimed (s : State) : Prop :=
  ∀ f, f ∈ s.txlog → Config.brrMin ≤ f.brr.toNat

/-- The bytes accepted and not lost, oldest first: TXLOG, then TSR, then TDR (R113). -/
def byteOrder (s : State) : List Byte :=
  s.txlog.map Frame.data ++ (s.tsr.map Frame.data).toList ++ s.tdr.toList

/-- The byte that a step from `s` to `t` of the bus master handed to the block: that of an accepted write of DR (R92). -/
def acceptedByte (s t : State) : List Byte :=
  match s.prog[s.pos]?.bind fun op => op.command s with
  | some c =>
    match decode c, t.fault with
    | .ok (.drWr w), none => [drByte w]
    | _, _ => []
  | none => []

/-- SEND_BYTE c is being run as R131 wants it: after its read of SR, a TXE seen as 1 is still 1, and before its write of
DR it has been seen as 1 and TDR is empty. -/
abbrev SendByteReady (c : Byte) (s : State) : Prop :=
  s.prog = sendByteOps c ∧
  (s.pos = 1 → s.t0.getLsbD Config.txeBit = true → s.tdr = none) ∧
  (s.pos = 2 → s.t0.getLsbD Config.txeBit = true ∧ s.tdr = none)

/-- The byte range of `n` bytes from `a` and the four bytes of the register at `r` have a byte in common; no range wraps
(R32, R36, R51 (2)). -/
def Overlaps (a : Word) (n : Nat) (r : Word) : Prop :=
  a.toNat + n ≤ 2 ^ 32 ∧ ∃ k j, k < n ∧ j < 4 ∧ a.toNat + k = r.toNat + j

/-- The byte range of a transaction overlaps some register (R36). -/
def Touches (a : Word) (sz : Size) : Prop :=
  ∃ r : Reg, Overlaps a (sizeBytes sz) (regAddr r)

/-- Two states with the same block: the tuple of R10. -/
abbrev SameBlock (s t : State) : Prop :=
  s.clk = t.clk ∧ s.pin = t.pin ∧ s.brr = t.brr ∧ s.ue = t.ue ∧ s.te = t.te ∧
  s.tdr = t.tdr ∧ s.tsr = t.tsr ∧ s.txlog = t.txlog ∧ s.fault = t.fault

/-- Two states with the same bus master, but for the result of its latest read. -/
abbrev SameMaster (s t : State) : Prop :=
  s.prog = t.prog ∧ s.pos = t.pos ∧ s.t0 = t.t0 ∧ s.t1 = t.t1 ∧ s.spin = t.spin

/-- Two states with the same schedule still to come. -/
abbrev SameSchedule (s t : State) : Prop :=
  s.events = t.events ∧ s.turns = t.turns

/-- An event has its turn again and again in a schedule. -/
def Fair (e : Event) (schedule : Nat → Event) : Prop :=
  ∀ n, ∃ m, n ≤ m ∧ schedule m = e

/-- TX_FAIR (R115): a working engine makes progress. A premise of claims that something ends, never a fact. -/
abbrev TxFair (schedule : Nat → Event) : Prop := Fair .engine schedule

/-- `k` steps, ending at the first fault or refusal: the host's `Sys2Proof.core.run`, at the machine's own types. -/
def runSteps : Nat → State → Result
  | 0, s => .next s
  | k + 1, s =>
    match step s with
    | .next t => runSteps k t
    | .fault r => .fault r
    | .refused r => .refused r

/-- `k` steps from `s` under a schedule (R27). -/
def runUnder (schedule : Nat → Event) (k : Nat) (s : State) : Result :=
  runSteps k { s with events := (List.range k).map schedule }

end Sys2Proof.Safety
end

