-- ==== Sys2Proof/Certificates/Slice0/Obligations.lean ====
section
/-! DEFINITION. The statements for the provers, each after its rule of the spec. A value or a behaviour that the model
chose is said to be the model's in the docstring. The block has no memory, so no frame here speaks of one. -/

open Sys2Proof Sys2Proof.Machine Sys2Proof.Safety

/-- CLK.RD returns all 32 bits of CLK, in every state without FAULT (R70). -/
def Obligations.ClkReadReturnsClk : Prop :=
  (∀ v, decode (commandWord 0b10 false Config.clkAddr v) = .ok .clkRd) ∧
  (∀ s : State, s.fault = none → exec .clkRd s = .next { s with rdata := s.clk }) ∧
  (∀ (s : State) (w : Word), s.fault = none →
    ∃ t, exec (.clkWr w) s = .next t ∧ exec .clkRd t = .next { t with rdata := w }) ∧
  exec .clkRd State.reset = .next { State.reset with rdata := 0 }

/-- CLK.WR stores any value, ungates or gates at once, and clears the mark of an unseen frame (R71). -/
def Obligations.ClkWriteStoresAndMarksFrame : Prop :=
  (∀ w, decode (commandWord 0b10 true Config.clkAddr w) = .ok (.clkWr w)) ∧
  (∀ (s : State) (w : Word), s.fault = none → ∃ t : State,
    exec (.clkWr w) s = .next t ∧
    t = { s with clk := w, tsr := t.tsr } ∧
    t.tsr = (if t.pinVisible then s.tsr else s.tsr.map fun f => { f with ok := false }) ∧
    exec .pinRd t = (if w.getLsbD Config.gpioEnBit then .next { t with rdata := s.pin }
      else .next { t with fault := some .gatedAccess }) ∧
    exec .brrRd t = (if w.getLsbD Config.uartEnBit then .next { t with rdata := s.brr.setWidth 32 }
      else .next { t with fault := some .gatedAccess }) ∧
    (w.getLsbD Config.uartEnBit = true →
      exec .crRd t = .next { t with rdata := crValue s.ue s.te } ∧
      ∃ u, exec .srRd t = .next u ∧ u.fault = none ∧ u.rdata.getLsbD Config.txeBit = s.tdr.isNone) ∧
    (∀ i : Instr, i.register = some .pin → ∃ u, exec i t = .next u ∧
      (u.fault = some .gatedAccess ↔ w.getLsbD Config.gpioEnBit = false)) ∧
    (∀ (i : Instr) (r : Reg), i.register = some r → r ≠ .clk → r ≠ .pin → ∃ u, exec i t = .next u ∧
      (u.fault = some .gatedAccess ↔ w.getLsbD Config.uartEnBit = false)) ∧
    (w.getLsbD Config.uartEnBit = false →
      t.txLoad = none ∧ t.txDone = none ∧ ∀ f, t.tsr = some f → f.ok = false)) ∧
  (∀ (s t : State) (f g : Frame), s.tsr = some f → f.ok = false → step s = .next t → t.tsr = some g → g.ok = false) ∧
  (∀ s : State, s.fault = none → MarkMeansVisible s → exec (.clkWr s.clk) s = .next s)

/-- PIN.RD returns PIN where the GPIO port is clocked, and is GatedAccess elsewhere (R80). -/
def Obligations.PinReadReturnsPin : Prop :=
  (∀ v, decode (commandWord 0b10 false Config.pinAddr v) = .ok .pinRd) ∧
  (∀ s : State, s.fault = none → exec .pinRd s =
    if s.clk.getLsbD Config.gpioEnBit then .next { s with rdata := s.pin } else .next { s with fault := some .gatedAccess }) ∧
  exec .pinRd { State.reset with clk := clkMask } =
    .next { State.reset with clk := clkMask, rdata := Config.pinReset }

/-- PIN.WR stores any value where the GPIO port is clocked and clears the mark of an unseen frame (R81). -/
def Obligations.PinWriteStoresAndMarksFrame : Prop :=
  (∀ w, decode (commandWord 0b10 true Config.pinAddr w) = .ok (.pinWr w)) ∧
  (∀ (s : State) (w : Word), s.fault = none → s.clk.getLsbD Config.gpioEnBit = false →
    exec (.pinWr w) s = .next { s with fault := some .gatedAccess }) ∧
  (∀ (s : State) (w : Word), s.fault = none → s.clk.getLsbD Config.gpioEnBit = true → ∃ t : State,
    exec (.pinWr w) s = .next t ∧
    t = { s with pin := w, tsr := t.tsr } ∧
    t.tsr = (if t.pinVisible then s.tsr else s.tsr.map fun f => { f with ok := false }) ∧
    (pinGroup w Config.txGroup ≠ Config.afPp → t.tsr = s.tsr.map fun f => { f with ok := false }))

/-- SR.RD returns TXE in its bit and a draw in the others, whatever CR holds (42_serial_registers.md R90). The numbering
and the count of the draws are the model’s own: log entry 7. -/
def Obligations.SrReadReportsTxe : Prop :=
  (∀ v, decode (commandWord 0b10 false Config.srAddr v) = .ok .srRd) ∧
  (∀ s : State, s.fault = none → s.clk.getLsbD Config.uartEnBit = false → exec .srRd s = .next { s with fault := some .gatedAccess }) ∧
  (∀ s : State, s.fault = none → s.clk.getLsbD Config.uartEnBit = true → ∃ t : State,
    exec .srRd s = .next t ∧
    t = { s with rdata := t.rdata, draws := s.draws + 1 } ∧
    t.rdata.getLsbD Config.txeBit = s.tdr.isNone ∧
    (∀ k, k < 32 → k ≠ Config.txeBit → t.rdata.getLsbD k = (Config.srOther s.draws).getLsbD k) ∧
    ∃ u, exec .srRd t = .next u ∧ u.rdata.getLsbD Config.txeBit = t.rdata.getLsbD Config.txeBit)

/-- SR.WR is accepted and changes nothing (42_serial_registers.md R91). The spec marks R91 as derived from the flags
being read-only (D9). -/
def Obligations.SrWriteHasNoEffect : Prop :=
  (∀ w, decode (commandWord 0b10 true Config.srAddr w) = .ok (.srWr w)) ∧
  (∀ (s : State) (w : Word), s.fault = none → exec (.srWr w) s =
    if s.clk.getLsbD Config.uartEnBit then .next s else .next { s with fault := some .gatedAccess })

/-- DR.WR: its checks in their order, then the byte is in TDR (R92). -/
def Obligations.DrWriteFillsTdr : Prop :=
  (∀ w, decode (commandWord 0b10 true Config.drAddr w) = .ok (.drWr w)) ∧
  (∀ (s : State) (w : Word), s.fault = none → exec (.drWr w) s =
    if s.clk.getLsbD Config.uartEnBit = false then .next { s with fault := some .gatedAccess }
    else if w.extractLsb' 8 24 ≠ 0 then .next { s with fault := some .reservedBitSet }
    else if s.ue = false ∨ s.te = false then .next { s with fault := some .dataWriteTxDisabled }
    else if s.tdr ≠ none then .next { s with fault := some .dataWriteNotReady }
    else if s.brr.toNat < Config.brrMin then .next { s with fault := some .badDivisor }
    else .next { s with tdr := some (w.extractLsb' 0 8) }) ∧
  (∀ (s t : State) (w : Word), exec (.drWr w) s = .next t → t.fault = none → s.txe = true ∧ t.txe = false)

/-- DR.RD returns a draw and leaves TDR alone (42_serial_registers.md R93). The numbering and the count of the draws are
the model’s own: log entry 7. -/
def Obligations.DrReadReturnsDraw : Prop :=
  (∀ v, decode (commandWord 0b10 false Config.drAddr v) = .ok .drRd) ∧
  (∀ s : State, s.fault = none → s.clk.getLsbD Config.uartEnBit = false → exec .drRd s = .next { s with fault := some .gatedAccess }) ∧
  (∀ s : State, s.fault = none → s.clk.getLsbD Config.uartEnBit = true →
    exec .drRd s = .next { s with rdata := Config.drRead s.draws, draws := s.draws + 1 })

/-- BRR.RD returns the divisor, zero-extended, whatever CR.UE is (R94). -/
def Obligations.BrrReadReturnsDivisor : Prop :=
  (∀ v, decode (commandWord 0b10 false Config.brrAddr v) = .ok .brrRd) ∧
  (∀ s : State, s.fault = none → exec .brrRd s =
    if s.clk.getLsbD Config.uartEnBit then .next { s with rdata := s.brr.setWidth 32 } else .next { s with fault := some .gatedAccess }) ∧
  exec .brrRd { State.reset with clk := clkMask } = .next { State.reset with clk := clkMask, rdata := 0 }

/-- BRR.WR stores any 16-bit divisor while CR.UE is 0 (R95). -/
def Obligations.BrrWriteNeedsDisabled : Prop :=
  (∀ w, decode (commandWord 0b10 true Config.brrAddr w) = .ok (.brrWr w)) ∧
  (∀ (s : State) (w : Word), s.fault = none → exec (.brrWr w) s =
    if s.clk.getLsbD Config.uartEnBit = false then .next { s with fault := some .gatedAccess }
    else if w.extractLsb' 16 16 ≠ 0 then .next { s with fault := some .reservedBitSet }
    else if s.ue = true then .next { s with fault := some .brrWriteWhileEnabled }
    else .next { s with brr := w.extractLsb' 0 16 })

/-- CR.RD returns UE and TE in their bits and 0 elsewhere (R96). -/
def Obligations.CrReadReturnsEnables : Prop :=
  (∀ v, decode (commandWord 0b10 false Config.crAddr v) = .ok .crRd) ∧
  (∀ s : State, s.fault = none → exec .crRd s =
    if s.clk.getLsbD Config.uartEnBit then
      .next { s with rdata := ((BitVec.ofBool s.ue).setWidth 32 <<< Config.ueBit) ||| ((BitVec.ofBool s.te).setWidth 32 <<< Config.teBit) }
    else .next { s with fault := some .gatedAccess }) ∧
  exec .crRd { State.reset with clk := clkMask } = .next { State.reset with clk := clkMask, rdata := 0 }

/-- CR.WR sets UE and TE, but clears neither while a byte is inside (R97). -/
def Obligations.CrWriteSetsEnables : Prop :=
  (∀ w, decode (commandWord 0b10 true Config.crAddr w) = .ok (.crWr w)) ∧
  (∀ (s : State) (w : Word), s.fault = none → exec (.crWr w) s =
    if s.clk.getLsbD Config.uartEnBit = false then .next { s with fault := some .gatedAccess }
    else if w &&& ~~~((1#32 <<< Config.ueBit) ||| (1#32 <<< Config.teBit)) ≠ 0 then
      .next { s with fault := some .reservedBitSet }
    else if (s.tdr ≠ none ∨ s.tsr ≠ none) ∧ (w.getLsbD Config.ueBit = false ∨ w.getLsbD Config.teBit = false) then
      .next { s with fault := some .disableWhileBusy }
    else .next { s with ue := w.getLsbD Config.ueBit, te := w.getLsbD Config.teBit }) ∧
  (∀ s : State, s.fault = none → s.clk.getLsbD Config.uartEnBit = true → BusyMeansEnabled s →
    exec (.crWr (crValue s.ue s.te)) s = .next s)

/-- A transaction that reaches no register raises UnmappedAddress, for a read as for a write (R36). -/
def Obligations.UnmappedRaises : Prop :=
  (∀ (s : State) (sz : Size) (a : Word), s.fault = none →
    exec (.unmappedRd sz a) s = .next { s with fault := some .unmappedAddress }) ∧
  (∀ (s : State) (sz : Size) (a v : Word), s.fault = none →
    exec (.unmappedWr sz a v) s = .next { s with fault := some .unmappedAddress }) ∧
  (∀ (s : State) (sz : Size) (w : Bool) (a v : Word), s.fault = none → ¬ Touches a sz →
    transaction (commandWord (sizeCode sz) w a v) s = .next { s with fault := some .unmappedAddress })

/-- A 1- or 2-byte transaction on a register raises BadAccessSize (R33). -/
def Obligations.NarrowAccessIsBadAccessSize : Prop :=
  ∀ (s : State) (sz : Size) (w : Bool) (a v : Word), s.fault = none → sz ≠ .word → Touches a sz →
    transaction (commandWord (sizeCode sz) w a v) s = .next { s with fault := some .badAccessSize }

/-- A misaligned word transaction on a register raises Misaligned (R34). -/
def Obligations.MisalignedWordRaises : Prop :=
  (∀ r : Reg, (regAddr r).extractLsb' 0 2 = 0) ∧
  (∀ (s : State) (w : Bool) (a v : Word), s.fault = none → a.extractLsb' 0 2 ≠ 0 → Touches a .word →
    transaction (commandWord 0b10 w a v) s = .next { s with fault := some .misaligned }) ∧
  (∀ (s : State) (w : Bool) (a v : Word), s.fault = none → a.extractLsb' 0 2 ≠ 0 → ¬ Touches a .word →
    transaction (commandWord 0b10 w a v) s = .next { s with fault := some .unmappedAddress })

/-- Every command word is refused, an illegal access, a fallback, or one register operation (30_encoding.md R51,
30_encoding.md R50). That a narrow UNMAPPED.WR carries the low bits of any WDATA is read from R50: log entry 12. -/
def Obligations.CommandWordClasses : Prop :=
  (∀ (w : Bool) (a v : Word), decode (commandWord 0b11 w a v) = .error .reservedEncoding ∧
    ∀ s, transaction (commandWord 0b11 w a v) s = .refused .reservedEncoding) ∧
  (∀ (sz : Size) (a v : Word), ¬ Touches a sz →
    decode (commandWord (sizeCode sz) false a v) = .ok (.unmappedRd sz a) ∧
    decode (commandWord (sizeCode sz) true a v) = .ok (.unmappedWr sz a (transferValue sz v))) ∧
  (∀ (sz : Size) (w : Bool) (a v : Word), Touches a sz → sz ≠ .word →
    decode (commandWord (sizeCode sz) w a v) = .error .badAccessSize) ∧
  (∀ (w : Bool) (a v : Word), Touches a .word → a.extractLsb' 0 2 ≠ 0 →
    decode (commandWord 0b10 w a v) = .error .misaligned) ∧
  (∀ (w : Bool) (a v : Word), Touches a .word → a.extractLsb' 0 2 = 0 →
    ∃ r, regAddr r = a ∧ decode (commandWord 0b10 w a v) = .ok (registerOp r w v)) ∧
  (∀ (z : BitVec 2) (a v v' : Word), decode (commandWord z false a v) = decode (commandWord z false a v'))

/-- A gated register is not accessible, CLK always is, and AUX_EN gates nothing (20_memory.md R38, 20_memory.md R37).
The spec marks R37, that CLK is never gated, as derived. -/
def Obligations.GatedAccessRaises : Prop :=
  (∀ (s : State) (w : Word), s.fault = none → s.clk.getLsbD Config.gpioEnBit = false →
    exec .pinRd s = .next { s with fault := some .gatedAccess } ∧ exec (.pinWr w) s = .next { s with fault := some .gatedAccess }) ∧
  (∀ (s : State) (w : Word), s.fault = none → s.clk.getLsbD Config.uartEnBit = false →
    exec .srRd s = .next { s with fault := some .gatedAccess } ∧ exec (.srWr w) s = .next { s with fault := some .gatedAccess } ∧
    exec .drRd s = .next { s with fault := some .gatedAccess } ∧ exec (.drWr w) s = .next { s with fault := some .gatedAccess } ∧
    exec .brrRd s = .next { s with fault := some .gatedAccess } ∧ exec (.brrWr w) s = .next { s with fault := some .gatedAccess } ∧
    exec .crRd s = .next { s with fault := some .gatedAccess } ∧ exec (.crWr w) s = .next { s with fault := some .gatedAccess }) ∧
  (∀ (s : State) (w : Word), s.fault = none →
    (∃ t, exec .clkRd s = .next t ∧ t.fault = none) ∧ ∃ t, exec (.clkWr w) s = .next t ∧ t.fault = none) ∧
  (∀ (i : Instr) (s t : State), s.clk.getLsbD Config.gpioEnBit = true → s.clk.getLsbD Config.uartEnBit = true →
    exec i s = .next t → t.fault ≠ some .gatedAccess)

/-- Once FAULT is set nothing has a meaning and nothing clears it (10_state.md R23). That every step from there stops is
the model’s choice, which R23 allows: log entry 5. -/
def Obligations.FaultEndsTheRun : Prop :=
  State.reset.fault = none ∧
  ∀ (s : State) (r : Reason), s.fault = some r →
    step s = .fault (.undefined r) ∧ (∀ i, exec i s = .fault (.undefined r)) ∧ s.environmentReset.fault = some r

/-- The transaction that raises changes FAULT and nothing else (60_exceptions.md R157). That the bus master stays where
it was is read from R157, and the event used is the model’s own: log entries 20 and 6. -/
def Obligations.RaisingChangesOnlyFault : Prop :=
  (∀ (c : Command) (s t : State) (r : Reason), transaction c s = .next t → t.fault = some r →
    t = { s with fault := some r }) ∧
  (∀ (s t : State) (r : Reason), step s = .next t → t.fault = some r → t = { s.tookEvent with fault := some r })

/-- TX_LOAD: when it is enabled, what it does, and that only it and reset set TXE (R110). -/
def Obligations.TxLoadMovesByteToLine : Prop :=
  (∀ s : State, s.txLoad.isSome = true ↔
    s.clk.getLsbD Config.uartEnBit = true ∧ s.ue = true ∧ s.te = true ∧ s.tdr ≠ none ∧ s.tsr = none) ∧
  (∀ (s : State) (b : Byte), s.clk.getLsbD Config.uartEnBit = true → s.ue = true → s.te = true → s.tdr = some b → s.tsr = none →
    s.txLoad = some { s with tdr := none, tsr := some ⟨b, s.brr, s.pinVisible⟩ } ∧
    s.engineStep = { s with tdr := none, tsr := some ⟨b, s.brr, s.pinVisible⟩ }) ∧
  (∀ s : State, s.fault = none → s.nextEvent = .engine → step s = .next s.tookEvent.engineStep) ∧
  (∀ s t : State, step s = .next t → s.txe = false → t.txe = true →
    s.nextEvent = .reset ∨ (s.nextEvent = .engine ∧ s.tookEvent.txLoad = some t))

/-- TX_DONE: when it is enabled, what it does, and that the next byte may follow at once (R111). -/
def Obligations.TxDoneLogsFrame : Prop :=
  (∀ s : State, s.txDone.isSome = true ↔ s.clk.getLsbD Config.uartEnBit = true ∧ s.ue = true ∧ s.te = true ∧ s.tsr ≠ none) ∧
  (∀ (s : State) (f : Frame), s.clk.getLsbD Config.uartEnBit = true → s.ue = true → s.te = true → s.tsr = some f →
    s.txDone = some { s with tsr := none, txlog := s.txlog ++ [f] } ∧
    s.engineStep = { s with tsr := none, txlog := s.txlog ++ [f] }) ∧
  (∀ s t : State, s.txDone = some t → s.tdr ≠ none → t.txLoad.isSome = true) ∧
  (∀ (s t : State) (w : Word), w.getLsbD Config.uartEnBit = false → exec (.clkWr w) s = .next t →
    t.txDone = none ∧ ∀ f, t.tsr = some f → f.ok = false)

/-- The engine changes no register, fills no TDR, and drops, repeats or reorders no byte (43_transmit_engine.md R112).
That an idle turn answers a next state is the model’s choice, and RDATA, the draws and the bus master are its own
fields: log entries 11, 7, 8 and 9. -/
def Obligations.EngineHasNoOtherStep : Prop :=
  ∀ s : State, s.fault = none → s.nextEvent = .engine → ∃ t : State, step s = .next t ∧
    t.clk = s.clk ∧ t.pin = s.pin ∧ t.brr = s.brr ∧ t.ue = s.ue ∧ t.te = s.te ∧ t.fault = none ∧
    (t.tdr = s.tdr ∨ t.tdr = none) ∧ byteOrder t = byteOrder s ∧
    SameMaster t s ∧ t.rdata = s.rdata ∧ t.draws = s.draws ∧
    (s.tdr = none → s.tsr = none → SameBlock t s)

/-- Gated or disabled, the engine does nothing, and enabling sends nothing by itself (43_transmit_engine.md R119). That
gating keeps what is inside is the spec’s decision D28: log entry 14. -/
def Obligations.EngineFrozenWhileOff : Prop :=
  (∀ s : State, s.clk.getLsbD Config.uartEnBit = false ∨ s.ue = false ∨ s.te = false → s.engineStep = s) ∧
  (∀ s : State, BusyMeansEnabled s → s.ue = false ∨ s.te = false → s.tdr = none ∧ s.tsr = none) ∧
  (∀ (s t : State) (w : Word), exec (.crWr w) s = .next t → t.tdr = s.tdr ∧ t.tsr = s.tsr)

/-- Two turns of the enabled engine raise TXE, three empty both buffers, a fourth does nothing (43_transmit_engine.md
R115, 20_memory.md R47). That a turn of the idle engine changes nothing is the model’s choice: log entry 11. -/
def Obligations.EngineDrainsInThreeTurns : Prop :=
  ∀ s : State, s.engineOn = true →
    (Nat.iterate State.engineStep 2 s).tdr = none ∧
    (∀ u : State, u = Nat.iterate State.engineStep 3 s →
      u.tdr = none ∧ u.tsr = none ∧
      u.txlog = s.txlog ++ s.tsr.toList ++ (s.tdr.map fun b => (⟨b, s.brr, s.pinVisible⟩ : Frame)).toList ∧
      u.engineStep = u)

/-- A byte inside means the transmitter is on with a usable divisor: every step keeps it (10_state.md R22). The spec
marks R22 as derived from its rules on writes of BRR, DR and CR. -/
def Obligations.BusyMeansEnabledKept : Prop :=
  BusyMeansEnabled State.reset ∧
  (∀ s t : State, BusyMeansEnabled s → step s = .next t → BusyMeansEnabled t) ∧
  (∀ (c : Command) (s t : State), BusyMeansEnabled s → transaction c s = .next t → BusyMeansEnabled t)

/-- The frame on the line has the divisor BRR holds, and every logged frame a usable one (43_transmit_engine.md R110,
10_state.md R22, 42_serial_registers.md R95). -/
def Obligations.FramesKeepTheirDivisorKept : Prop :=
  ∀ s t : State, BusyMeansEnabled s ∧ LineHasDivisor s ∧ LogTimed s → step s = .next t →
    BusyMeansEnabled t ∧ LineHasDivisor t ∧ LogTimed t

/-- A frame on the line marked ok means the pin is visible now: every step keeps it (41_pin_configurator.md R86,
41_pin_configurator.md R85). -/
def Obligations.MarkMeansVisibleKept : Prop :=
  ∀ s t : State, MarkMeansVisible s → step s = .next t → MarkMeansVisible t

/-- The three invariants hold right after reset, and after a reset in mid-run (10_state.md R22, 70_reset_and_hazards.md
R171). -/
def Obligations.InvariantsHoldAtReset : Prop :=
  (BusyMeansEnabled State.reset ∧ LineHasDivisor State.reset ∧ LogTimed State.reset ∧ MarkMeansVisible State.reset) ∧
  (∀ s : State, BusyMeansEnabled s.environmentReset ∧ LineHasDivisor s.environmentReset ∧
    MarkMeansVisible s.environmentReset) ∧
  (∀ s : State, BusyMeansEnabled s → LineHasDivisor s → LogTimed s → LogTimed s.environmentReset)

/-- The ok mark is set by TX_LOAD to pin_visible() and from then on only falls (R86). -/
def Obligations.FrameMarkOnlyFalls : Prop :=
  (∀ (s t : State) (g : Frame), s.tsr = none → step s = .next t → t.tsr = some g → g.ok = s.pinVisible) ∧
  (∀ (s t : State) (f g : Frame), s.tsr = some f → step s = .next t → t.tsr = some g →
    g.data = f.data ∧ g.brr = f.brr ∧ (g.ok = true → f.ok = true)) ∧
  (∀ (i : Instr) (s t : State) (f : Frame), (∃ w, i = .clkWr w ∨ i = .pinWr w) → s.tsr = some f → exec i s = .next t →
    t.fault = none → t.pinVisible = false → t.tsr = some { f with ok := false }) ∧
  (∀ (s t : State) (f : Frame), s.tsr = some f → s.txDone = some t → t.txlog = s.txlog ++ [f])

/-- The bytes logged, on the line and waiting are the bytes accepted, in order, but for one lost to a reset
(43_transmit_engine.md R113, 70_reset_and_hazards.md R172). -/
def Obligations.BytesLeaveInOrder : Prop :=
  (∀ s t : State, step s = .next t →
    byteOrder t =
      if s.nextEvent = .reset then s.txlog.map Frame.data ++ (s.tsr.map Frame.data).toList
      else if s.nextEvent = .busMaster then byteOrder s ++ acceptedByte s t
      else byteOrder s) ∧
  (∀ (i : Instr) (s t : State), exec i s = .next t → t.fault = none →
    byteOrder t = byteOrder s ++ (match i with | .drWr w => [w.extractLsb' 0 8] | _ => []))

/-- TXLOG is appended to by TX_DONE and by a reset that cuts a frame, and by nothing else (10_state.md R21). -/
def Obligations.LogOnlyGrows : Prop :=
  State.reset.txlog = [] ∧
  (∀ s t : State, step s = .next t → t.txlog = s.txlog ∨
    ∃ f, s.tsr = some f ∧
      ((s.nextEvent = .engine ∧ t.txlog = s.txlog ++ [f]) ∨
       (s.nextEvent = .reset ∧ t.txlog = s.txlog ++ [{ f with ok := false }]))) ∧
  (∀ (s t : State) (f : Frame), s.tsr = some f → s.nextEvent = .reset → step s = .next t →
    t.txlog = s.txlog ++ [{ f with ok := false }]) ∧
  (∀ (i : Instr) (s t : State), exec i s = .next t → t.txlog = s.txlog)

/-- TXE mirrors TDR, falls only on an accepted write of DR, rises only on TX_LOAD and reset (10_state.md R16). The spec
marks R16 as derived from R17 and the flag’s name. -/
def Obligations.TxeFallsOnlyOnDataWrite : Prop :=
  (∀ s : State, s.txe = true ↔ s.tdr = none) ∧
  (∀ s t : State, step s = .next t → s.txe = true → t.txe = false →
    s.nextEvent = .busMaster ∧ t.fault = none ∧
    ∃ op c w, s.prog[s.pos]? = some op ∧ op.command s = some c ∧ decode c = .ok (.drWr w)) ∧
  (∀ s t : State, step s = .next t → s.txe = false → t.txe = true →
    s.nextEvent = .reset ∨ (s.nextEvent = .engine ∧ s.tookEvent.txLoad = some t)) ∧
  (∀ s t : State, exec .srRd s = .next t → t.fault = none → t.rdata.getLsbD Config.txeBit = s.txe)

/-- What each instruction leaves unchanged: every register but its own, the bus master, the schedule (20_memory.md R40,
20_memory.md R44, 10_state.md R11, 10_state.md R13). RDATA between reads and the count of draws are the model’s own:
log entries 7 and 8. -/
def Obligations.InstructionFrames : Prop :=
  ∀ (i : Instr) (s t : State), exec i s = .next t →
    ((∀ w, i ≠ .clkWr w) → t.clk = s.clk) ∧
    ((∀ w, i ≠ .pinWr w) → t.pin = s.pin) ∧
    ((∀ w, i ≠ .brrWr w) → t.brr = s.brr) ∧
    ((∀ w, i ≠ .crWr w) → t.ue = s.ue ∧ t.te = s.te) ∧
    ((∀ w, i ≠ .drWr w) → t.tdr = s.tdr) ∧
    ((∀ w, i ≠ .clkWr w) → (∀ w, i ≠ .pinWr w) → t.tsr = s.tsr) ∧
    t.tsr.map Frame.data = s.tsr.map Frame.data ∧ t.tsr.map Frame.brr = s.tsr.map Frame.brr ∧
    t.txlog = s.txlog ∧
    (i.isWrite = true → t.rdata = s.rdata) ∧
    (i ≠ .srRd → i ≠ .drRd → t.draws = s.draws) ∧
    SameMaster t s ∧ SameSchedule t s

/-- No draw and nothing of the bus master or the schedule reaches the block (42_serial_registers.md R90,
42_serial_registers.md R93, 20_memory.md R30). -/
def Obligations.DrawsNeverReachTheBlock : Prop :=
  ∀ (i : Instr) (s s' t : State), SameBlock s s' → exec i s = .next t →
    ∃ t', exec i s' = .next t' ∧ SameBlock t t'

/-- Writing the same value twice is writing it once, but for DR (20_memory.md R40). -/
def Obligations.RepeatedWrites : Prop :=
  ∀ (s t : State) (w : Word), t.fault = none →
    (exec (.clkWr w) s = .next t → exec (.clkWr w) t = .next t) ∧
    (exec (.pinWr w) s = .next t → exec (.pinWr w) t = .next t) ∧
    (exec (.srWr w) s = .next t → exec (.srWr w) t = .next t) ∧
    (exec (.brrWr w) s = .next t → exec (.brrWr w) t = .next t) ∧
    (exec (.crWr w) s = .next t → exec (.crWr w) t = .next t) ∧
    (exec (.drWr w) s = .next t → exec (.drWr w) t = .next { t with fault := some .dataWriteNotReady })

/-- A read of CLK, PIN, BRR or CR returns the value written, whatever turns the engine takes between (20_memory.md R41,
20_memory.md R44). -/
def Obligations.ReadReturnsLatestWrite : Prop :=
  ∀ (s : State) (w : Word) (n : Nat), s.fault = none →
    (∃ t u, exec (.clkWr w) s = .next t ∧ exec .clkRd (Nat.iterate State.engineStep n t) = .next u ∧ u.rdata = w) ∧
    (s.clk.getLsbD Config.gpioEnBit = true →
      ∃ t u, exec (.pinWr w) s = .next t ∧ exec .pinRd (Nat.iterate State.engineStep n t) = .next u ∧ u.rdata = w) ∧
    (s.clk.getLsbD Config.uartEnBit = true → s.ue = false → w.toNat < 2 ^ 16 →
      ∃ t u, exec (.brrWr w) s = .next t ∧ exec .brrRd (Nat.iterate State.engineStep n t) = .next u ∧ u.rdata = w) ∧
    (s.clk.getLsbD Config.uartEnBit = true → s.busy = false ∨ (w.getLsbD Config.ueBit = true ∧ w.getLsbD Config.teBit = true) →
      w &&& ~~~(ueMask ||| teMask) = 0 →
      ∃ t u, exec (.crWr w) s = .next t ∧ exec .crRd (Nat.iterate State.engineStep n t) = .next u ∧ u.rdata = w)

/-- The bus master’s step is exec of the decoded command word, its result taken, its position moved on (20_memory.md
R30, 20_memory.md R41, 60_exceptions.md R157, 30_encoding.md R51, 20_memory.md R33, 20_memory.md R34). The bus
master’s position and temporaries and the schedule are the model’s own, and so is refusing a word with SIZE = 0b11
only when the bus master comes to it: log entries 6, 9, 10, 20 and 27. -/
def Obligations.StepRunsDecodedInstruction : Prop :=
  (∀ (s t : State) (op : BusOp) (c : Command) (i : Instr), s.fault = none → s.nextEvent = .busMaster →
    s.prog[s.pos]? = some op → op.command s = some c → decode c = .ok i → exec i s.tookEvent = .next t →
    step s = if t.fault = none then .next ((op.receive t).goto (t.pos + 1)) else .next t) ∧
  (∀ (s : State) (op : BusOp) (c : Command), s.fault = none → s.nextEvent = .busMaster →
    s.prog[s.pos]? = some op → op.command s = some c → decode c = .error .reservedEncoding →
    step s = .refused .reservedEncoding) ∧
  (∀ (s : State) (op : BusOp) (c : Command), s.fault = none → s.nextEvent = .busMaster →
    s.prog[s.pos]? = some op → op.command s = some c → decode c = .error .badAccessSize →
    step s = .next { s.tookEvent with fault := some .badAccessSize }) ∧
  (∀ (s : State) (op : BusOp) (c : Command), s.fault = none → s.nextEvent = .busMaster →
    s.prog[s.pos]? = some op → op.command s = some c → decode c = .error .misaligned →
    step s = .next { s.tookEvent with fault := some .misaligned }) ∧
  (∀ (s t : State) (nbits w : Nat) (i : Instr), s.fault = none → decodeTableWord nbits w = some i →
    exec i (s.load [.issue (commandOfTable nbits w)]) = .next t →
    step (s.withFetchWord nbits w) = if t.fault = none then .next (t.goto 1) else .next t)

/-- The operation map’s words decode to the operations they stand for (30_encoding.md R59, 30_encoding.md R58,
95_test_vectors.md 2.3, 2.4). The addresses are the spec’s defaults: log entry 1. -/
def Obligations.TableWordsDecode : Prop :=
  decode 0x44002101800000000 = .ok .clkRd ∧ decode 0x54002101800004005 = .ok (.clkWr 0x4005) ∧
  decode 0x44001080400000000 = .ok .pinRd ∧ decode 0x540010804444444B4 = .ok (.pinWr 0x444444B4) ∧
  decode 0x44001380000000000 = .ok .srRd ∧ decode 0x540013800FFFFFFFF = .ok (.srWr 0xFFFFFFFF) ∧
  decode 0x54001380400000041 = .ok (.drWr 0x41) ∧ decode 0x44001380400000000 = .ok .drRd ∧
  decode 0x44001380800000000 = .ok .brrRd ∧ decode 0x54001380800000341 = .ok (.brrWr 0x341) ∧
  decode 0x44001380C00000000 = .ok .crRd ∧ decode 0x54001380C00002008 = .ok (.crWr 0x2008) ∧
  decode 0x44001381000000000 = .ok (.unmappedRd .word 0x40013810) ∧
  decode 0x500000000FFFFFFFF = .ok (.unmappedWr .word 0 0xFFFFFFFF) ∧
  decode 0x04001380000000000 = .error .badAccessSize ∧ decode 0x44001380200000000 = .error .misaligned ∧
  decode 0x64001380000000000 = .error .reservedEncoding

/-- Decoding an encoded well-formed instruction gives it back, for every instruction and operand (30_encoding.md R50,
30_encoding.md R51, 30_encoding.md R58, 30_encoding.md R59). -/
def Obligations.DecodeOfEncode : Prop :=
  ∀ i : Instr, i.wellFormed = true → decode (encode i) = .ok i

/-- What decodes is well formed, and its canonical word agrees in every field that has a meaning (30_encoding.md R50,
30_encoding.md R51). The value of a narrow write is read from R50: log entry 12. -/
def Obligations.EncodeOfDecode : Prop :=
  ∀ (c : Command) (i : Instr), decode c = .ok i →
    i.wellFormed = true ∧ i.isWrite = writeField c ∧
    sizeField (encode i) = sizeField c ∧ writeField (encode i) = writeField c ∧ addrField (encode i) = addrField c ∧
    (writeField c = true → sizeField c = 0b10 → encode i = c) ∧
    (∀ (sz : Size) (k : Nat), writeField c = true → sizeField c = sizeCode sz →
      (dataField (encode i)).getLsbD k = (decide (k < 8 * sizeBytes sz) && (dataField c).getLsbD k)) ∧
    (writeField c = false → dataField (encode i) = 0)

/-- Reset while running: every register at its reset value, a cut frame logged not-ok, a waiting byte lost (R171, R172). -/
def Obligations.ResetEffect : Prop :=
  (∀ s : State, SameBlock s.environmentReset
    { s with
      clk := 0, pin := Config.pinReset, brr := 0, ue := false, te := false, tdr := none, tsr := none,
      txlog := (match s.tsr with | some f => s.txlog ++ [{ f with ok := false }] | none => s.txlog) }) ∧
  (∀ s : State, s.environmentReset.txe = true ∧ s.environmentReset.gpioEn = false ∧
    s.environmentReset.uartEn = false ∧ s.environmentReset.auxEn = false ∧
    s.environmentReset.txLoad = none ∧ s.environmentReset.txDone = none ∧
    s.environmentReset.line = .idle ∧ s.environmentReset.pinVisible = false) ∧
  (∀ s : State, s.fault = none → s.nextEvent = .reset → step s = .next s.tookEvent.environmentReset)

/-- The state at the start of a run: the reset values of the spec, nothing sent, no fault (10_state.md R26). PIN_RESET
is a parameter: log entry 3. -/
def Obligations.StartOfRun : Prop :=
  State.reset.clk = 0 ∧ State.reset.pin = Config.pinReset ∧ State.reset.brr = 0 ∧ State.reset.ue = false ∧
  State.reset.te = false ∧ State.reset.tdr = none ∧ State.reset.txe = true ∧ State.reset.tsr = none ∧
  State.reset.txlog = [] ∧ State.reset.fault = none

/-- The two forms of brr_of agree, and it is defined exactly in range (R125). -/
def Obligations.DivisorFormsAgree : Prop :=
  (∀ f b : Nat, b ≠ 0 → packedDivisor f b = roundedDivisor f b) ∧
  (∀ (f b : Nat) (d : Half), brrOf f b = some d ↔
    f ≠ 0 ∧ b ≠ 0 ∧ Config.brrMin ≤ roundedDivisor f b ∧ roundedDivisor f b ≤ 0xFFFF ∧ d.toNat = roundedDivisor f b) ∧
  (∀ (f b : Nat) (d : Half), brrOf f b = some d →
    (brrMant d).toNat = roundedDivisor f b >>> 4 ∧ (brrFrac d).toNat = roundedDivisor f b &&& 0xF) ∧
  brrOf 8000000 9600 = some 0x341 ∧ brrMant 0x341 = 52 ∧ brrFrac 0x341 = 1

/-- brr_of rounds half up, carries, and is refused out of range before any transaction (44_serial_driver_ops.md R126,
60_exceptions.md R153). BRR_MIN is a parameter: log entry 4. -/
def Obligations.DivisorCorners : Prop :=
  (∀ f b : Nat, b ≠ 0 → 2 * b * roundedDivisor f b ≤ 2 * f + b ∧ 2 * f + b < 2 * b * (roundedDivisor f b + 1)) ∧
  roundedDivisor 1000 16 = 63 ∧ brrOf 8000000 9091 = some 0x370 ∧ rawFraction 8000000 9091 = 16 ∧
  brrOf 8000000 122 = none ∧ brrOf 8000000 123 = some 0xFE11 ∧
  brrOf 8000000 1000000 = none ∧ brrOf 8000000 500000 = some 0x10 ∧ brrOf 8000000 0 = none ∧ brrOf 0 9600 = none ∧
  (∀ (s : State) (f b : Nat), brrOf f b = none → s.startDriver (.uartSetup f b) = .refused .divisorUndefined)

/-- CLOCK_ENABLE sets the three named bits of CLK and leaves the other 29 (40_clock_enabler.md R73). The spec marks R73
as derived from R70 to R72. -/
def Obligations.ClockEnableSetsThreeBits : Prop :=
  ∀ s : State, s.fault = none → ∃ t : State,
    runUnder (fun _ => .busMaster) 2 (s.load clockEnableOps) = .next t ∧ t.fault = none ∧ t.pos = 2 ∧
    t.clk = s.clk ||| clkMask ∧
    ∀ k, k < 32 → t.clk.getLsbD k =
      if k = Config.gpioEnBit ∨ k = Config.uartEnBit ∨ k = Config.auxEnBit then true else s.clk.getLsbD k

/-- The three-step variant of CLOCK_ENABLE ends with the same CLK in any order of the bits (40_clock_enabler.md R74).
The spec marks R74 as derived from R70 and R71. -/
def Obligations.ClockEnableStepwiseAgrees : Prop :=
  ∀ (s : State) (order : List Nat), s.fault = none →
    order.Perm [Config.gpioEnBit, Config.uartEnBit, Config.auxEnBit] → ∃ t u : State,
    runUnder (fun _ => .busMaster) 6 (s.load (clockEnableStepwise order)) = .next t ∧
    runUnder (fun _ => .busMaster) 2 (s.load clockEnableOps) = .next u ∧
    t.fault = none ∧ t.clk = s.clk ||| clkMask ∧ t.clk = u.clk

/-- PIN_CONFIG sets the transmit pin’s group to 0b1011, leaves the other seven, and is idempotent
(41_pin_configurator.md R83). The spec marks R83 as derived from R80 to R82. -/
def Obligations.PinConfigSetsGroup : Prop :=
  ∀ s : State, s.fault = none → s.clk.getLsbD Config.gpioEnBit = true → ∃ m t u : State,
    runUnder (fun _ => .busMaster) 2 (s.load pinConfigOps) = .next m ∧ pinGroup m.pin Config.txGroup = 0 ∧
    runUnder (fun _ => .busMaster) 4 (s.load pinConfigOps) = .next t ∧ t.fault = none ∧
    t.pin = (s.pin &&& ~~~grpMask) ||| grpAfPp ∧
    pinGroup t.pin Config.txGroup = 0b1011 ∧
    (∀ g, g < 8 → g ≠ Config.txGroup → pinGroup t.pin g = pinGroup s.pin g) ∧
    runUnder (fun _ => .busMaster) 4 (t.load pinConfigOps) = .next u ∧ u.fault = none ∧ u.pin = t.pin ∧
    ∃ v : State, runUnder (fun _ => .busMaster) 2 (t.load pinConfigOps) = .next v ∧
      pinGroup v.pin Config.txGroup = 0

/-- UART_SETUP ends with UE = TE = 1 and BRR = brr_of(f, b), which a read of BRR then returns (44_serial_driver_ops.md
R128, 44_serial_driver_ops.md R129, 42_serial_registers.md R97). The spec marks R129 as derived from R125 and R128. -/
def Obligations.UartSetupEnablesTransmitter : Prop :=
  brrOf 8000000 9600 = some 0x341 ∧
  (∀ (s : State) (f b : Nat) (d : Half), s.fault = none → s.clk.getLsbD Config.uartEnBit = true → s.busy = false → brrOf f b = some d →
    ∃ t : State, (DriverOp.uartSetup f b).expand = some (uartSetupOps d) ∧
      runUnder (fun _ => .busMaster) 5 (s.load (uartSetupOps d)) = .next t ∧ t.fault = none ∧
      t.ue = true ∧ t.te = true ∧ t.brr = d ∧ t.tdr = none ∧ t.tsr = none ∧ t.txlog = s.txlog ∧
      t.clk = s.clk ∧ t.pin = s.pin ∧
      exec .brrRd t = .next { t with rdata := d.setWidth 32 }) ∧
  (∀ (s : State) (d : Half), s.fault = none → s.clk.getLsbD Config.uartEnBit = true → s.busy = true → ∃ t : State,
    runUnder (fun _ => .busMaster) 2 (s.load (uartSetupOps d)) = .next t ∧ t.fault = some .disableWhileBusy)

/-- SEND_BYTE writes DR only after TXE was read as 1; with TXE never 1 it polls for ever and never writes
(44_serial_driver_ops.md R131). The spec marks R131 as derived from R130. -/
def Obligations.SendByteWritesOnlyWhenReady : Prop :=
  (∀ (schedule : Nat → Event) (k : Nat) (s t : State) (c : Byte), s.fault = none →
    runUnder schedule k (s.load (sendByteOps c)) = .next t →
    (t.pos = 2 → t.t0.getLsbD Config.txeBit = true ∧ t.tdr = none) ∧ t.fault ≠ some .dataWriteNotReady) ∧
  (∀ (k : Nat) (s : State) (b c : Byte), s.fault = none → s.clk.getLsbD Config.uartEnBit = true → s.tdr = some b →
    ∃ t : State, runUnder (fun _ => .busMaster) k (s.load (sendByteOps c)) = .next t ∧ t.pos ≤ 1 ∧ SameBlock t s)

/-- Under TX_FAIR, SEND_BYTE ends with its byte accepted behind all earlier ones (44_serial_driver_ops.md R130,
43_transmit_engine.md R115). That the bus master has its turn again and again is a premise of the model’s own: log
entry 25. -/
def Obligations.SendByteEndsUnderFairness : Prop :=
  ∀ (schedule : Nat → Event) (s : State) (c : Byte),
    TxFair schedule → Fair .busMaster schedule → (∀ n, schedule n ≠ .reset) →
    s.fault = none → s.engineOn = true → Config.brrMin ≤ s.brr.toNat →
    ∃ (k : Nat) (t : State), runUnder schedule k (s.load (sendByteOps c)) = .next t ∧
      t.pos = 3 ∧ t.fault = none ∧ byteOrder t = byteOrder s ++ [c]

/-- DELAY n passes after n iterations and one more step, and touches nothing of the block (45_main_loop.md R140).
Counting a delay in turns of the bus master is the model’s choice: log entry 13. -/
def Obligations.DelayIssuesNothing : Prop :=
  ∀ (n : Nat) (s : State), s.fault = none →
    (∃ t : State, runUnder (fun _ => .busMaster) (n + 1) (s.load [.delay n]) = .next t ∧ t.pos = 1 ∧ SameBlock t s ∧
      t.rdata = s.rdata ∧ t.t0 = s.t0 ∧ t.t1 = s.t1 ∧ t.draws = s.draws) ∧
    (∀ k, k ≤ n → ∃ t : State, runUnder (fun _ => .busMaster) k (s.load [.delay n]) = .next t ∧ t.pos = 0)

/-- A final state stays final with its block unchanged; where the bus master has finished, only the schedule is used up
(43_transmit_engine.md R118, 60_exceptions.md R153). That an idle turn changes nothing but the schedule, and that
the bus master has finished, for a stuck state, once it is past the end of its program, are the model’s choices;
that no transaction is left where only control forms follow is read from R118 (c): log entries 11 and 26. -/
def Obligations.FinalAndStuckStatesStay : Prop :=
  (∀ s : State, final s = true → s.nextEvent ≠ .reset → ∃ t : State, step s = .next t ∧ final t = true ∧
    SameBlock t s ∧ t.rdata = s.rdata ∧ t.t0 = s.t0 ∧ t.t1 = s.t1 ∧ t.draws = s.draws ∧ t.prog = s.prog) ∧
  (∀ s : State, (final s = true ∧ programOver s = true) ∨ stuck s = true → s.nextEvent ≠ .reset →
    step s = .next s.tookEvent) ∧
  (∀ (s : State) (op : BusOp), final s = true → s.prog[s.pos]? = some op → op.command s = none) ∧
  (∀ s : State, programOver s = true → s.busy = false → s.fault = none → final s = true)

/-- A frame is start bit 0, eight data bits least significant first, stop bit 1 (43_transmit_engine.md R116). Bit order
and polarity are the spec’s general knowledge: log entry 16. -/
def Obligations.FrameIsEightNOne : Prop :=
  (∀ b : Byte, frameBits b = [false, b.getLsbD 0, b.getLsbD 1, b.getLsbD 2, b.getLsbD 3, b.getLsbD 4, b.getLsbD 5,
    b.getLsbD 6, b.getLsbD 7, true]) ∧
  (∀ (b : Byte) (brr : Half), (frameBits b).length * bitPeriod brr = frameTime brr)

/-- The pin shows the serial line exactly where group and three clock bits allow it (41_pin_configurator.md R85). TxPin
is the line shown, and the level of a pin that shows none is a free value: log entry 15. -/
def Obligations.PinShowsLineWhenVisible : Prop :=
  (∀ s : State, s.pinVisible = true ↔
    pinGroup s.pin Config.txGroup = 0b1011 ∧ s.clk.getLsbD Config.gpioEnBit = true ∧
    s.clk.getLsbD Config.uartEnBit = true ∧ s.clk.getLsbD Config.auxEnBit = true) ∧
  (∀ s : State, s.pinVisible = true → s.txPin = some s.line) ∧
  (∀ s : State, s.pinVisible = false → s.txPin = none)

/-- Between its read of SR and its write of DR, SEND_BYTE’s seen TXE stays true: every step keeps it
(44_serial_driver_ops.md R130, 44_serial_driver_ops.md R131). The spec marks R131 as derived from R130. -/
def Obligations.SendByteReadyKept : Prop :=
  (∀ (c : Byte) (s t : State), SendByteReady c s → step s = .next t →
    SendByteReady c t ∧ t.fault ≠ some .dataWriteNotReady) ∧
  (∀ (c : Byte) (s : State), SendByteReady c (s.load (sendByteOps c)))

/-- The idle line is at level 1; a frame holds each of its ten bits for a bit period, and the pin shows that
(43_transmit_engine.md R117, 43_transmit_engine.md R116, 43_transmit_engine.md R118, 41_pin_configurator.md R85).
The line’s levels are the spec’s general knowledge, and a pin that is not visible has a free value: log entries 16
and 15. -/
def Obligations.LineCarriesFrame : Prop :=
  (∀ (s : State) (n : Nat), s.tsr = none → s.line.levelAt n = some true) ∧
  (∀ (s : State) (f : Frame) (k j : Nat), s.tsr = some f → k < 10 → j < f.brr.toNat →
    s.line.levelAt (k * f.brr.toNat + j) =
      some (if k = 0 then false else if k = 9 then true else f.data.getLsbD (k - 1))) ∧
  (∀ (o : Nat) (s : State) (n : Nat) (b : Bool), s.pinVisible = true → s.line.levelAt n = some b → s.txLevelAt o n = b) ∧
  (∀ (o : Nat) (s : State) (n : Nat), s.pinVisible = false → s.txLevelAt o n = Config.pinLevel o n) ∧
  (∀ (o : Nat) (f : Frame) (n : Nat) (b : Bool), f.ok = true → f.line.levelAt n = some b → f.levelAt o n = b) ∧
  (∀ (o : Nat) (f : Frame) (n : Nat), f.ok = false → f.levelAt o n = Config.pinLevel o n)
end

