-- ==== Sys2Proof/Laws/Encoding.lean ====
section
/-! SUPPORT. The fields of a command word (spec/30_encoding.md R50): each reads back what was put in, and a command
word is its four fields. -/

namespace Sys2Proof

/-- Bit `i` of a command word, field by field (R50). -/
theorem getLsbD_commandWord (z : BitVec 2) (w : Bool) (a v : Word) (i : Nat) :
    (commandWord z w a v).getLsbD i =
      if i < 32 then v.getLsbD i
      else if i < 64 then a.getLsbD (i - 32)
      else if i < 65 then w
      else z.getLsbD (i - 65) := by
  unfold commandWord
  rw [BitVec.getLsbD_append, BitVec.getLsbD_append, BitVec.getLsbD_append, BitVec.getLsbD_ofBool]
  by_cases h1 : i < 32
  · rw [if_pos h1, if_pos h1]
  · rw [if_neg h1, if_neg h1]
    by_cases h2 : i < 64
    · rw [if_pos (by omega), if_pos h2]
    · rw [if_neg (by omega), if_neg h2]
      by_cases h3 : i < 65
      · rw [if_pos (by omega), if_pos h3, show i = 64 by omega]; simp
      · rw [if_neg (by omega), if_neg h3]; congr 1

@[simp] theorem sizeField_commandWord (z : BitVec 2) (w : Bool) (a v : Word) :
    sizeField (commandWord z w a v) = z := by
  apply BitVec.eq_of_getLsbD_eq
  intro i hi
  rw [sizeField, BitVec.getLsbD_extractLsb', getLsbD_commandWord, if_neg (by omega), if_neg (by omega),
    if_neg (by omega)]
  simp [hi]

@[simp] theorem writeField_commandWord (z : BitVec 2) (w : Bool) (a v : Word) :
    writeField (commandWord z w a v) = w := by
  rw [writeField, getLsbD_commandWord]; rfl

@[simp] theorem addrField_commandWord (z : BitVec 2) (w : Bool) (a v : Word) :
    addrField (commandWord z w a v) = a := by
  apply BitVec.eq_of_getLsbD_eq
  intro i hi
  rw [addrField, BitVec.getLsbD_extractLsb', getLsbD_commandWord, if_neg (by omega), if_pos (by omega)]
  simp [hi]

@[simp] theorem dataField_commandWord (z : BitVec 2) (w : Bool) (a v : Word) :
    dataField (commandWord z w a v) = v := by
  apply BitVec.eq_of_getLsbD_eq
  intro i hi
  rw [dataField, BitVec.getLsbD_extractLsb', getLsbD_commandWord, if_pos (by omega)]
  simp [hi]

/-- A command word is its four fields (R50). -/
theorem commandWord_fields (c : Command) :
    commandWord (sizeField c) (writeField c) (addrField c) (dataField c) = c := by
  apply BitVec.eq_of_getLsbD_eq
  intro i hi
  rw [getLsbD_commandWord]
  split
  · rw [dataField, BitVec.getLsbD_extractLsb']; simp_all
  · split
    · rw [addrField, BitVec.getLsbD_extractLsb']
      simp only [show 32 + (i - 32) = i by omega, show i - 32 < 32 by omega, decide_true, Bool.true_and]
    · split
      · rw [writeField, show i = 64 by omega]
      · rw [sizeField, BitVec.getLsbD_extractLsb']
        simp only [show 65 + (i - 65) = i by omega, show i - 65 < 2 by omega, decide_true, Bool.true_and]

/-- Decoding by fields (R51). -/
theorem decode_commandWord (z : BitVec 2) (w : Bool) (a v : Word) :
    decode (commandWord z w a v) =
      match sizeOfCode z with
      | none => .error .reservedEncoding
      | some sz =>
        if Machine.overlapsRegister a sz then decodeRegister sz w a v else .ok (fallbackOp sz w a v) := by
  cases h : sizeOfCode z <;>
    simp only [decode, sizeField_commandWord, writeField_commandWord, addrField_commandWord, dataField_commandWord, h]

@[simp] theorem sizeOfCode_sizeCode (sz : Size) : sizeOfCode (sizeCode sz) = some sz := by cases sz <;> rfl

/-- The word access at a register's address is that register's operation (R59). -/
theorem decode_register (r : Reg) (w : Bool) (v : Word) :
    decode (commandWord 0b10 w (Machine.regAddr r) v) = .ok (registerOp r w v) := by
  rw [decode_commandWord]
  cases r <;> rfl

end Sys2Proof
end

