-- ==== Sys2Proof/Laws/State.lean ====
section
/-! SUPPORT. What each update of the state leaves in each field: one lemma per field per update, so that no later
proof unfolds a record update; then the values computed from the registers, under the updates that do not touch them. -/

namespace Sys2Proof.Machine

variable (s : State)

-- setClk
@[simp] theorem State.setClk_clk (v : Word) : (s.setClk v).clk = v := rfl
@[simp] theorem State.setClk_pin (v : Word) : (s.setClk v).pin = s.pin := rfl
@[simp] theorem State.setClk_brr (v : Word) : (s.setClk v).brr = s.brr := rfl
@[simp] theorem State.setClk_ue (v : Word) : (s.setClk v).ue = s.ue := rfl
@[simp] theorem State.setClk_te (v : Word) : (s.setClk v).te = s.te := rfl
@[simp] theorem State.setClk_tdr (v : Word) : (s.setClk v).tdr = s.tdr := rfl
@[simp] theorem State.setClk_tsr (v : Word) : (s.setClk v).tsr = s.tsr := rfl
@[simp] theorem State.setClk_txlog (v : Word) : (s.setClk v).txlog = s.txlog := rfl
@[simp] theorem State.setClk_fault (v : Word) : (s.setClk v).fault = s.fault := rfl
@[simp] theorem State.setClk_rdata (v : Word) : (s.setClk v).rdata = s.rdata := rfl
@[simp] theorem State.setClk_prog (v : Word) : (s.setClk v).prog = s.prog := rfl
@[simp] theorem State.setClk_pos (v : Word) : (s.setClk v).pos = s.pos := rfl
@[simp] theorem State.setClk_t0 (v : Word) : (s.setClk v).t0 = s.t0 := rfl
@[simp] theorem State.setClk_t1 (v : Word) : (s.setClk v).t1 = s.t1 := rfl
@[simp] theorem State.setClk_spin (v : Word) : (s.setClk v).spin = s.spin := rfl
@[simp] theorem State.setClk_events (v : Word) : (s.setClk v).events = s.events := rfl
@[simp] theorem State.setClk_turns (v : Word) : (s.setClk v).turns = s.turns := rfl
@[simp] theorem State.setClk_draws (v : Word) : (s.setClk v).draws = s.draws := rfl

-- setPin
@[simp] theorem State.setPin_clk (v : Word) : (s.setPin v).clk = s.clk := rfl
@[simp] theorem State.setPin_pin (v : Word) : (s.setPin v).pin = v := rfl
@[simp] theorem State.setPin_brr (v : Word) : (s.setPin v).brr = s.brr := rfl
@[simp] theorem State.setPin_ue (v : Word) : (s.setPin v).ue = s.ue := rfl
@[simp] theorem State.setPin_te (v : Word) : (s.setPin v).te = s.te := rfl
@[simp] theorem State.setPin_tdr (v : Word) : (s.setPin v).tdr = s.tdr := rfl
@[simp] theorem State.setPin_tsr (v : Word) : (s.setPin v).tsr = s.tsr := rfl
@[simp] theorem State.setPin_txlog (v : Word) : (s.setPin v).txlog = s.txlog := rfl
@[simp] theorem State.setPin_fault (v : Word) : (s.setPin v).fault = s.fault := rfl
@[simp] theorem State.setPin_rdata (v : Word) : (s.setPin v).rdata = s.rdata := rfl
@[simp] theorem State.setPin_prog (v : Word) : (s.setPin v).prog = s.prog := rfl
@[simp] theorem State.setPin_pos (v : Word) : (s.setPin v).pos = s.pos := rfl
@[simp] theorem State.setPin_t0 (v : Word) : (s.setPin v).t0 = s.t0 := rfl
@[simp] theorem State.setPin_t1 (v : Word) : (s.setPin v).t1 = s.t1 := rfl
@[simp] theorem State.setPin_spin (v : Word) : (s.setPin v).spin = s.spin := rfl
@[simp] theorem State.setPin_events (v : Word) : (s.setPin v).events = s.events := rfl
@[simp] theorem State.setPin_turns (v : Word) : (s.setPin v).turns = s.turns := rfl
@[simp] theorem State.setPin_draws (v : Word) : (s.setPin v).draws = s.draws := rfl

-- setBrr
@[simp] theorem State.setBrr_clk (v : Half) : (s.setBrr v).clk = s.clk := rfl
@[simp] theorem State.setBrr_pin (v : Half) : (s.setBrr v).pin = s.pin := rfl
@[simp] theorem State.setBrr_brr (v : Half) : (s.setBrr v).brr = v := rfl
@[simp] theorem State.setBrr_ue (v : Half) : (s.setBrr v).ue = s.ue := rfl
@[simp] theorem State.setBrr_te (v : Half) : (s.setBrr v).te = s.te := rfl
@[simp] theorem State.setBrr_tdr (v : Half) : (s.setBrr v).tdr = s.tdr := rfl
@[simp] theorem State.setBrr_tsr (v : Half) : (s.setBrr v).tsr = s.tsr := rfl
@[simp] theorem State.setBrr_txlog (v : Half) : (s.setBrr v).txlog = s.txlog := rfl
@[simp] theorem State.setBrr_fault (v : Half) : (s.setBrr v).fault = s.fault := rfl
@[simp] theorem State.setBrr_rdata (v : Half) : (s.setBrr v).rdata = s.rdata := rfl
@[simp] theorem State.setBrr_prog (v : Half) : (s.setBrr v).prog = s.prog := rfl
@[simp] theorem State.setBrr_pos (v : Half) : (s.setBrr v).pos = s.pos := rfl
@[simp] theorem State.setBrr_t0 (v : Half) : (s.setBrr v).t0 = s.t0 := rfl
@[simp] theorem State.setBrr_t1 (v : Half) : (s.setBrr v).t1 = s.t1 := rfl
@[simp] theorem State.setBrr_spin (v : Half) : (s.setBrr v).spin = s.spin := rfl
@[simp] theorem State.setBrr_events (v : Half) : (s.setBrr v).events = s.events := rfl
@[simp] theorem State.setBrr_turns (v : Half) : (s.setBrr v).turns = s.turns := rfl
@[simp] theorem State.setBrr_draws (v : Half) : (s.setBrr v).draws = s.draws := rfl

-- setCr
@[simp] theorem State.setCr_clk (u t : Bool) : (s.setCr u t).clk = s.clk := rfl
@[simp] theorem State.setCr_pin (u t : Bool) : (s.setCr u t).pin = s.pin := rfl
@[simp] theorem State.setCr_brr (u t : Bool) : (s.setCr u t).brr = s.brr := rfl
@[simp] theorem State.setCr_ue (u t : Bool) : (s.setCr u t).ue = u := rfl
@[simp] theorem State.setCr_te (u t : Bool) : (s.setCr u t).te = t := rfl
@[simp] theorem State.setCr_tdr (u t : Bool) : (s.setCr u t).tdr = s.tdr := rfl
@[simp] theorem State.setCr_tsr (u t : Bool) : (s.setCr u t).tsr = s.tsr := rfl
@[simp] theorem State.setCr_txlog (u t : Bool) : (s.setCr u t).txlog = s.txlog := rfl
@[simp] theorem State.setCr_fault (u t : Bool) : (s.setCr u t).fault = s.fault := rfl
@[simp] theorem State.setCr_rdata (u t : Bool) : (s.setCr u t).rdata = s.rdata := rfl
@[simp] theorem State.setCr_prog (u t : Bool) : (s.setCr u t).prog = s.prog := rfl
@[simp] theorem State.setCr_pos (u t : Bool) : (s.setCr u t).pos = s.pos := rfl
@[simp] theorem State.setCr_t0 (u t : Bool) : (s.setCr u t).t0 = s.t0 := rfl
@[simp] theorem State.setCr_t1 (u t : Bool) : (s.setCr u t).t1 = s.t1 := rfl
@[simp] theorem State.setCr_spin (u t : Bool) : (s.setCr u t).spin = s.spin := rfl
@[simp] theorem State.setCr_events (u t : Bool) : (s.setCr u t).events = s.events := rfl
@[simp] theorem State.setCr_turns (u t : Bool) : (s.setCr u t).turns = s.turns := rfl
@[simp] theorem State.setCr_draws (u t : Bool) : (s.setCr u t).draws = s.draws := rfl

-- setTdr
@[simp] theorem State.setTdr_clk (b : Option Byte) : (s.setTdr b).clk = s.clk := rfl
@[simp] theorem State.setTdr_pin (b : Option Byte) : (s.setTdr b).pin = s.pin := rfl
@[simp] theorem State.setTdr_brr (b : Option Byte) : (s.setTdr b).brr = s.brr := rfl
@[simp] theorem State.setTdr_ue (b : Option Byte) : (s.setTdr b).ue = s.ue := rfl
@[simp] theorem State.setTdr_te (b : Option Byte) : (s.setTdr b).te = s.te := rfl
@[simp] theorem State.setTdr_tdr (b : Option Byte) : (s.setTdr b).tdr = b := rfl
@[simp] theorem State.setTdr_tsr (b : Option Byte) : (s.setTdr b).tsr = s.tsr := rfl
@[simp] theorem State.setTdr_txlog (b : Option Byte) : (s.setTdr b).txlog = s.txlog := rfl
@[simp] theorem State.setTdr_fault (b : Option Byte) : (s.setTdr b).fault = s.fault := rfl
@[simp] theorem State.setTdr_rdata (b : Option Byte) : (s.setTdr b).rdata = s.rdata := rfl
@[simp] theorem State.setTdr_prog (b : Option Byte) : (s.setTdr b).prog = s.prog := rfl
@[simp] theorem State.setTdr_pos (b : Option Byte) : (s.setTdr b).pos = s.pos := rfl
@[simp] theorem State.setTdr_t0 (b : Option Byte) : (s.setTdr b).t0 = s.t0 := rfl
@[simp] theorem State.setTdr_t1 (b : Option Byte) : (s.setTdr b).t1 = s.t1 := rfl
@[simp] theorem State.setTdr_spin (b : Option Byte) : (s.setTdr b).spin = s.spin := rfl
@[simp] theorem State.setTdr_events (b : Option Byte) : (s.setTdr b).events = s.events := rfl
@[simp] theorem State.setTdr_turns (b : Option Byte) : (s.setTdr b).turns = s.turns := rfl
@[simp] theorem State.setTdr_draws (b : Option Byte) : (s.setTdr b).draws = s.draws := rfl

-- setTsr
@[simp] theorem State.setTsr_clk (f : Option Frame) : (s.setTsr f).clk = s.clk := rfl
@[simp] theorem State.setTsr_pin (f : Option Frame) : (s.setTsr f).pin = s.pin := rfl
@[simp] theorem State.setTsr_brr (f : Option Frame) : (s.setTsr f).brr = s.brr := rfl
@[simp] theorem State.setTsr_ue (f : Option Frame) : (s.setTsr f).ue = s.ue := rfl
@[simp] theorem State.setTsr_te (f : Option Frame) : (s.setTsr f).te = s.te := rfl
@[simp] theorem State.setTsr_tdr (f : Option Frame) : (s.setTsr f).tdr = s.tdr := rfl
@[simp] theorem State.setTsr_tsr (f : Option Frame) : (s.setTsr f).tsr = f := rfl
@[simp] theorem State.setTsr_txlog (f : Option Frame) : (s.setTsr f).txlog = s.txlog := rfl
@[simp] theorem State.setTsr_fault (f : Option Frame) : (s.setTsr f).fault = s.fault := rfl
@[simp] theorem State.setTsr_rdata (f : Option Frame) : (s.setTsr f).rdata = s.rdata := rfl
@[simp] theorem State.setTsr_prog (f : Option Frame) : (s.setTsr f).prog = s.prog := rfl
@[simp] theorem State.setTsr_pos (f : Option Frame) : (s.setTsr f).pos = s.pos := rfl
@[simp] theorem State.setTsr_t0 (f : Option Frame) : (s.setTsr f).t0 = s.t0 := rfl
@[simp] theorem State.setTsr_t1 (f : Option Frame) : (s.setTsr f).t1 = s.t1 := rfl
@[simp] theorem State.setTsr_spin (f : Option Frame) : (s.setTsr f).spin = s.spin := rfl
@[simp] theorem State.setTsr_events (f : Option Frame) : (s.setTsr f).events = s.events := rfl
@[simp] theorem State.setTsr_turns (f : Option Frame) : (s.setTsr f).turns = s.turns := rfl
@[simp] theorem State.setTsr_draws (f : Option Frame) : (s.setTsr f).draws = s.draws := rfl

-- appendLog
@[simp] theorem State.appendLog_clk (fs : List Frame) : (s.appendLog fs).clk = s.clk := rfl
@[simp] theorem State.appendLog_pin (fs : List Frame) : (s.appendLog fs).pin = s.pin := rfl
@[simp] theorem State.appendLog_brr (fs : List Frame) : (s.appendLog fs).brr = s.brr := rfl
@[simp] theorem State.appendLog_ue (fs : List Frame) : (s.appendLog fs).ue = s.ue := rfl
@[simp] theorem State.appendLog_te (fs : List Frame) : (s.appendLog fs).te = s.te := rfl
@[simp] theorem State.appendLog_tdr (fs : List Frame) : (s.appendLog fs).tdr = s.tdr := rfl
@[simp] theorem State.appendLog_tsr (fs : List Frame) : (s.appendLog fs).tsr = s.tsr := rfl
@[simp] theorem State.appendLog_txlog (fs : List Frame) : (s.appendLog fs).txlog = s.txlog ++ fs := rfl
@[simp] theorem State.appendLog_fault (fs : List Frame) : (s.appendLog fs).fault = s.fault := rfl
@[simp] theorem State.appendLog_rdata (fs : List Frame) : (s.appendLog fs).rdata = s.rdata := rfl
@[simp] theorem State.appendLog_prog (fs : List Frame) : (s.appendLog fs).prog = s.prog := rfl
@[simp] theorem State.appendLog_pos (fs : List Frame) : (s.appendLog fs).pos = s.pos := rfl
@[simp] theorem State.appendLog_t0 (fs : List Frame) : (s.appendLog fs).t0 = s.t0 := rfl
@[simp] theorem State.appendLog_t1 (fs : List Frame) : (s.appendLog fs).t1 = s.t1 := rfl
@[simp] theorem State.appendLog_spin (fs : List Frame) : (s.appendLog fs).spin = s.spin := rfl
@[simp] theorem State.appendLog_events (fs : List Frame) : (s.appendLog fs).events = s.events := rfl
@[simp] theorem State.appendLog_turns (fs : List Frame) : (s.appendLog fs).turns = s.turns := rfl
@[simp] theorem State.appendLog_draws (fs : List Frame) : (s.appendLog fs).draws = s.draws := rfl

-- setFault
@[simp] theorem State.setFault_clk (r : Reason) : (s.setFault r).clk = s.clk := rfl
@[simp] theorem State.setFault_pin (r : Reason) : (s.setFault r).pin = s.pin := rfl
@[simp] theorem State.setFault_brr (r : Reason) : (s.setFault r).brr = s.brr := rfl
@[simp] theorem State.setFault_ue (r : Reason) : (s.setFault r).ue = s.ue := rfl
@[simp] theorem State.setFault_te (r : Reason) : (s.setFault r).te = s.te := rfl
@[simp] theorem State.setFault_tdr (r : Reason) : (s.setFault r).tdr = s.tdr := rfl
@[simp] theorem State.setFault_tsr (r : Reason) : (s.setFault r).tsr = s.tsr := rfl
@[simp] theorem State.setFault_txlog (r : Reason) : (s.setFault r).txlog = s.txlog := rfl
@[simp] theorem State.setFault_fault (r : Reason) : (s.setFault r).fault = some r := rfl
@[simp] theorem State.setFault_rdata (r : Reason) : (s.setFault r).rdata = s.rdata := rfl
@[simp] theorem State.setFault_prog (r : Reason) : (s.setFault r).prog = s.prog := rfl
@[simp] theorem State.setFault_pos (r : Reason) : (s.setFault r).pos = s.pos := rfl
@[simp] theorem State.setFault_t0 (r : Reason) : (s.setFault r).t0 = s.t0 := rfl
@[simp] theorem State.setFault_t1 (r : Reason) : (s.setFault r).t1 = s.t1 := rfl
@[simp] theorem State.setFault_spin (r : Reason) : (s.setFault r).spin = s.spin := rfl
@[simp] theorem State.setFault_events (r : Reason) : (s.setFault r).events = s.events := rfl
@[simp] theorem State.setFault_turns (r : Reason) : (s.setFault r).turns = s.turns := rfl
@[simp] theorem State.setFault_draws (r : Reason) : (s.setFault r).draws = s.draws := rfl

-- setRdata
@[simp] theorem State.setRdata_clk (v : Word) : (s.setRdata v).clk = s.clk := rfl
@[simp] theorem State.setRdata_pin (v : Word) : (s.setRdata v).pin = s.pin := rfl
@[simp] theorem State.setRdata_brr (v : Word) : (s.setRdata v).brr = s.brr := rfl
@[simp] theorem State.setRdata_ue (v : Word) : (s.setRdata v).ue = s.ue := rfl
@[simp] theorem State.setRdata_te (v : Word) : (s.setRdata v).te = s.te := rfl
@[simp] theorem State.setRdata_tdr (v : Word) : (s.setRdata v).tdr = s.tdr := rfl
@[simp] theorem State.setRdata_tsr (v : Word) : (s.setRdata v).tsr = s.tsr := rfl
@[simp] theorem State.setRdata_txlog (v : Word) : (s.setRdata v).txlog = s.txlog := rfl
@[simp] theorem State.setRdata_fault (v : Word) : (s.setRdata v).fault = s.fault := rfl
@[simp] theorem State.setRdata_rdata (v : Word) : (s.setRdata v).rdata = v := rfl
@[simp] theorem State.setRdata_prog (v : Word) : (s.setRdata v).prog = s.prog := rfl
@[simp] theorem State.setRdata_pos (v : Word) : (s.setRdata v).pos = s.pos := rfl
@[simp] theorem State.setRdata_t0 (v : Word) : (s.setRdata v).t0 = s.t0 := rfl
@[simp] theorem State.setRdata_t1 (v : Word) : (s.setRdata v).t1 = s.t1 := rfl
@[simp] theorem State.setRdata_spin (v : Word) : (s.setRdata v).spin = s.spin := rfl
@[simp] theorem State.setRdata_events (v : Word) : (s.setRdata v).events = s.events := rfl
@[simp] theorem State.setRdata_turns (v : Word) : (s.setRdata v).turns = s.turns := rfl
@[simp] theorem State.setRdata_draws (v : Word) : (s.setRdata v).draws = s.draws := rfl

-- nextDraw
@[simp] theorem State.nextDraw_clk : (s.nextDraw).clk = s.clk := rfl
@[simp] theorem State.nextDraw_pin : (s.nextDraw).pin = s.pin := rfl
@[simp] theorem State.nextDraw_brr : (s.nextDraw).brr = s.brr := rfl
@[simp] theorem State.nextDraw_ue : (s.nextDraw).ue = s.ue := rfl
@[simp] theorem State.nextDraw_te : (s.nextDraw).te = s.te := rfl
@[simp] theorem State.nextDraw_tdr : (s.nextDraw).tdr = s.tdr := rfl
@[simp] theorem State.nextDraw_tsr : (s.nextDraw).tsr = s.tsr := rfl
@[simp] theorem State.nextDraw_txlog : (s.nextDraw).txlog = s.txlog := rfl
@[simp] theorem State.nextDraw_fault : (s.nextDraw).fault = s.fault := rfl
@[simp] theorem State.nextDraw_rdata : (s.nextDraw).rdata = s.rdata := rfl
@[simp] theorem State.nextDraw_prog : (s.nextDraw).prog = s.prog := rfl
@[simp] theorem State.nextDraw_pos : (s.nextDraw).pos = s.pos := rfl
@[simp] theorem State.nextDraw_t0 : (s.nextDraw).t0 = s.t0 := rfl
@[simp] theorem State.nextDraw_t1 : (s.nextDraw).t1 = s.t1 := rfl
@[simp] theorem State.nextDraw_spin : (s.nextDraw).spin = s.spin := rfl
@[simp] theorem State.nextDraw_events : (s.nextDraw).events = s.events := rfl
@[simp] theorem State.nextDraw_turns : (s.nextDraw).turns = s.turns := rfl
@[simp] theorem State.nextDraw_draws : (s.nextDraw).draws = s.draws + 1 := rfl

-- goto
@[simp] theorem State.goto_clk (p : Nat) : (s.goto p).clk = s.clk := rfl
@[simp] theorem State.goto_pin (p : Nat) : (s.goto p).pin = s.pin := rfl
@[simp] theorem State.goto_brr (p : Nat) : (s.goto p).brr = s.brr := rfl
@[simp] theorem State.goto_ue (p : Nat) : (s.goto p).ue = s.ue := rfl
@[simp] theorem State.goto_te (p : Nat) : (s.goto p).te = s.te := rfl
@[simp] theorem State.goto_tdr (p : Nat) : (s.goto p).tdr = s.tdr := rfl
@[simp] theorem State.goto_tsr (p : Nat) : (s.goto p).tsr = s.tsr := rfl
@[simp] theorem State.goto_txlog (p : Nat) : (s.goto p).txlog = s.txlog := rfl
@[simp] theorem State.goto_fault (p : Nat) : (s.goto p).fault = s.fault := rfl
@[simp] theorem State.goto_rdata (p : Nat) : (s.goto p).rdata = s.rdata := rfl
@[simp] theorem State.goto_prog (p : Nat) : (s.goto p).prog = s.prog := rfl
@[simp] theorem State.goto_pos (p : Nat) : (s.goto p).pos = p := rfl
@[simp] theorem State.goto_t0 (p : Nat) : (s.goto p).t0 = s.t0 := rfl
@[simp] theorem State.goto_t1 (p : Nat) : (s.goto p).t1 = s.t1 := rfl
@[simp] theorem State.goto_spin (p : Nat) : (s.goto p).spin = 0 := rfl
@[simp] theorem State.goto_events (p : Nat) : (s.goto p).events = s.events := rfl
@[simp] theorem State.goto_turns (p : Nat) : (s.goto p).turns = s.turns := rfl
@[simp] theorem State.goto_draws (p : Nat) : (s.goto p).draws = s.draws := rfl

-- spinOnce
@[simp] theorem State.spinOnce_clk : (s.spinOnce).clk = s.clk := rfl
@[simp] theorem State.spinOnce_pin : (s.spinOnce).pin = s.pin := rfl
@[simp] theorem State.spinOnce_brr : (s.spinOnce).brr = s.brr := rfl
@[simp] theorem State.spinOnce_ue : (s.spinOnce).ue = s.ue := rfl
@[simp] theorem State.spinOnce_te : (s.spinOnce).te = s.te := rfl
@[simp] theorem State.spinOnce_tdr : (s.spinOnce).tdr = s.tdr := rfl
@[simp] theorem State.spinOnce_tsr : (s.spinOnce).tsr = s.tsr := rfl
@[simp] theorem State.spinOnce_txlog : (s.spinOnce).txlog = s.txlog := rfl
@[simp] theorem State.spinOnce_fault : (s.spinOnce).fault = s.fault := rfl
@[simp] theorem State.spinOnce_rdata : (s.spinOnce).rdata = s.rdata := rfl
@[simp] theorem State.spinOnce_prog : (s.spinOnce).prog = s.prog := rfl
@[simp] theorem State.spinOnce_pos : (s.spinOnce).pos = s.pos := rfl
@[simp] theorem State.spinOnce_t0 : (s.spinOnce).t0 = s.t0 := rfl
@[simp] theorem State.spinOnce_t1 : (s.spinOnce).t1 = s.t1 := rfl
@[simp] theorem State.spinOnce_spin : (s.spinOnce).spin = s.spin + 1 := rfl
@[simp] theorem State.spinOnce_events : (s.spinOnce).events = s.events := rfl
@[simp] theorem State.spinOnce_turns : (s.spinOnce).turns = s.turns := rfl
@[simp] theorem State.spinOnce_draws : (s.spinOnce).draws = s.draws := rfl

-- load
@[simp] theorem State.load_clk (p : List BusOp) : (State.load p s).clk = s.clk := rfl
@[simp] theorem State.load_pin (p : List BusOp) : (State.load p s).pin = s.pin := rfl
@[simp] theorem State.load_brr (p : List BusOp) : (State.load p s).brr = s.brr := rfl
@[simp] theorem State.load_ue (p : List BusOp) : (State.load p s).ue = s.ue := rfl
@[simp] theorem State.load_te (p : List BusOp) : (State.load p s).te = s.te := rfl
@[simp] theorem State.load_tdr (p : List BusOp) : (State.load p s).tdr = s.tdr := rfl
@[simp] theorem State.load_tsr (p : List BusOp) : (State.load p s).tsr = s.tsr := rfl
@[simp] theorem State.load_txlog (p : List BusOp) : (State.load p s).txlog = s.txlog := rfl
@[simp] theorem State.load_fault (p : List BusOp) : (State.load p s).fault = s.fault := rfl
@[simp] theorem State.load_rdata (p : List BusOp) : (State.load p s).rdata = s.rdata := rfl
@[simp] theorem State.load_prog (p : List BusOp) : (State.load p s).prog = p := rfl
@[simp] theorem State.load_pos (p : List BusOp) : (State.load p s).pos = 0 := rfl
@[simp] theorem State.load_t0 (p : List BusOp) : (State.load p s).t0 = s.t0 := rfl
@[simp] theorem State.load_t1 (p : List BusOp) : (State.load p s).t1 = s.t1 := rfl
@[simp] theorem State.load_spin (p : List BusOp) : (State.load p s).spin = 0 := rfl
@[simp] theorem State.load_events (p : List BusOp) : (State.load p s).events = s.events := rfl
@[simp] theorem State.load_turns (p : List BusOp) : (State.load p s).turns = s.turns := rfl
@[simp] theorem State.load_draws (p : List BusOp) : (State.load p s).draws = s.draws := rfl

-- resetBlock
@[simp] theorem State.resetBlock_clk : (s.resetBlock).clk = 0 := rfl
@[simp] theorem State.resetBlock_pin : (s.resetBlock).pin = Config.pinReset := rfl
@[simp] theorem State.resetBlock_brr : (s.resetBlock).brr = 0 := rfl
@[simp] theorem State.resetBlock_ue : (s.resetBlock).ue = false := rfl
@[simp] theorem State.resetBlock_te : (s.resetBlock).te = false := rfl
@[simp] theorem State.resetBlock_tdr : (s.resetBlock).tdr = none := rfl
@[simp] theorem State.resetBlock_tsr : (s.resetBlock).tsr = none := rfl
@[simp] theorem State.resetBlock_txlog : (s.resetBlock).txlog = s.txlog ++ (s.tsr.map Frame.spoil).toList := rfl
@[simp] theorem State.resetBlock_fault : (s.resetBlock).fault = s.fault := rfl
@[simp] theorem State.resetBlock_rdata : (s.resetBlock).rdata = s.rdata := rfl
@[simp] theorem State.resetBlock_prog : (s.resetBlock).prog = s.prog := rfl
@[simp] theorem State.resetBlock_pos : (s.resetBlock).pos = s.pos := rfl
@[simp] theorem State.resetBlock_t0 : (s.resetBlock).t0 = s.t0 := rfl
@[simp] theorem State.resetBlock_t1 : (s.resetBlock).t1 = s.t1 := rfl
@[simp] theorem State.resetBlock_spin : (s.resetBlock).spin = s.spin := rfl
@[simp] theorem State.resetBlock_events : (s.resetBlock).events = s.events := rfl
@[simp] theorem State.resetBlock_turns : (s.resetBlock).turns = s.turns := rfl
@[simp] theorem State.resetBlock_draws : (s.resetBlock).draws = s.draws := rfl

-- setTemp
@[simp] theorem State.setTemp_clk (t : Temp) (v : Word) : (s.setTemp t v).clk = s.clk := by cases t <;> rfl
@[simp] theorem State.setTemp_pin (t : Temp) (v : Word) : (s.setTemp t v).pin = s.pin := by cases t <;> rfl
@[simp] theorem State.setTemp_brr (t : Temp) (v : Word) : (s.setTemp t v).brr = s.brr := by cases t <;> rfl
@[simp] theorem State.setTemp_ue (t : Temp) (v : Word) : (s.setTemp t v).ue = s.ue := by cases t <;> rfl
@[simp] theorem State.setTemp_te (t : Temp) (v : Word) : (s.setTemp t v).te = s.te := by cases t <;> rfl
@[simp] theorem State.setTemp_tdr (t : Temp) (v : Word) : (s.setTemp t v).tdr = s.tdr := by cases t <;> rfl
@[simp] theorem State.setTemp_tsr (t : Temp) (v : Word) : (s.setTemp t v).tsr = s.tsr := by cases t <;> rfl
@[simp] theorem State.setTemp_txlog (t : Temp) (v : Word) : (s.setTemp t v).txlog = s.txlog := by cases t <;> rfl
@[simp] theorem State.setTemp_fault (t : Temp) (v : Word) : (s.setTemp t v).fault = s.fault := by cases t <;> rfl
@[simp] theorem State.setTemp_rdata (t : Temp) (v : Word) : (s.setTemp t v).rdata = s.rdata := by cases t <;> rfl
@[simp] theorem State.setTemp_prog (t : Temp) (v : Word) : (s.setTemp t v).prog = s.prog := by cases t <;> rfl
@[simp] theorem State.setTemp_pos (t : Temp) (v : Word) : (s.setTemp t v).pos = s.pos := by cases t <;> rfl
@[simp] theorem State.setTemp_spin (t : Temp) (v : Word) : (s.setTemp t v).spin = s.spin := by cases t <;> rfl
@[simp] theorem State.setTemp_events (t : Temp) (v : Word) : (s.setTemp t v).events = s.events := by cases t <;> rfl
@[simp] theorem State.setTemp_turns (t : Temp) (v : Word) : (s.setTemp t v).turns = s.turns := by cases t <;> rfl
@[simp] theorem State.setTemp_draws (t : Temp) (v : Word) : (s.setTemp t v).draws = s.draws := by cases t <;> rfl
@[simp] theorem State.setTemp_t0_t0 (v : Word) : (s.setTemp .t0 v).t0 = v := rfl
@[simp] theorem State.setTemp_t0_t1 (v : Word) : (s.setTemp .t0 v).t1 = s.t1 := rfl
@[simp] theorem State.setTemp_t1_t1 (v : Word) : (s.setTemp .t1 v).t1 = v := rfl
@[simp] theorem State.setTemp_t1_t0 (v : Word) : (s.setTemp .t1 v).t0 = s.t0 := rfl

-- tookEvent
@[simp] theorem State.tookEvent_clk : s.tookEvent.clk = s.clk := by cases s with | mk => unfold State.tookEvent; split <;> rfl
@[simp] theorem State.tookEvent_pin : s.tookEvent.pin = s.pin := by cases s with | mk => unfold State.tookEvent; split <;> rfl
@[simp] theorem State.tookEvent_brr : s.tookEvent.brr = s.brr := by cases s with | mk => unfold State.tookEvent; split <;> rfl
@[simp] theorem State.tookEvent_ue : s.tookEvent.ue = s.ue := by cases s with | mk => unfold State.tookEvent; split <;> rfl
@[simp] theorem State.tookEvent_te : s.tookEvent.te = s.te := by cases s with | mk => unfold State.tookEvent; split <;> rfl
@[simp] theorem State.tookEvent_tdr : s.tookEvent.tdr = s.tdr := by cases s with | mk => unfold State.tookEvent; split <;> rfl
@[simp] theorem State.tookEvent_tsr : s.tookEvent.tsr = s.tsr := by cases s with | mk => unfold State.tookEvent; split <;> rfl
@[simp] theorem State.tookEvent_txlog : s.tookEvent.txlog = s.txlog := by cases s with | mk => unfold State.tookEvent; split <;> rfl
@[simp] theorem State.tookEvent_fault : s.tookEvent.fault = s.fault := by cases s with | mk => unfold State.tookEvent; split <;> rfl
@[simp] theorem State.tookEvent_rdata : s.tookEvent.rdata = s.rdata := by cases s with | mk => unfold State.tookEvent; split <;> rfl
@[simp] theorem State.tookEvent_prog : s.tookEvent.prog = s.prog := by cases s with | mk => unfold State.tookEvent; split <;> rfl
@[simp] theorem State.tookEvent_pos : s.tookEvent.pos = s.pos := by cases s with | mk => unfold State.tookEvent; split <;> rfl
@[simp] theorem State.tookEvent_t0 : s.tookEvent.t0 = s.t0 := by cases s with | mk => unfold State.tookEvent; split <;> rfl
@[simp] theorem State.tookEvent_t1 : s.tookEvent.t1 = s.t1 := by cases s with | mk => unfold State.tookEvent; split <;> rfl
@[simp] theorem State.tookEvent_spin : s.tookEvent.spin = s.spin := by cases s with | mk => unfold State.tookEvent; split <;> rfl
@[simp] theorem State.tookEvent_draws : s.tookEvent.draws = s.draws := by cases s with | mk => unfold State.tookEvent; split <;> rfl

-- values computed from the registers
@[simp] theorem State.setPin_keeps_gpioEn (v : Word) : (s.setPin v).gpioEn = s.gpioEn := rfl
@[simp] theorem State.setBrr_keeps_gpioEn (v : Half) : (s.setBrr v).gpioEn = s.gpioEn := rfl
@[simp] theorem State.setCr_keeps_gpioEn (u t : Bool) : (s.setCr u t).gpioEn = s.gpioEn := rfl
@[simp] theorem State.setTdr_keeps_gpioEn (b : Option Byte) : (s.setTdr b).gpioEn = s.gpioEn := rfl
@[simp] theorem State.setTsr_keeps_gpioEn (f : Option Frame) : (s.setTsr f).gpioEn = s.gpioEn := rfl
@[simp] theorem State.appendLog_keeps_gpioEn (fs : List Frame) : (s.appendLog fs).gpioEn = s.gpioEn := rfl
@[simp] theorem State.setFault_keeps_gpioEn (r : Reason) : (s.setFault r).gpioEn = s.gpioEn := rfl
@[simp] theorem State.setRdata_keeps_gpioEn (v : Word) : (s.setRdata v).gpioEn = s.gpioEn := rfl
@[simp] theorem State.nextDraw_keeps_gpioEn : (s.nextDraw).gpioEn = s.gpioEn := rfl
@[simp] theorem State.goto_keeps_gpioEn (p : Nat) : (s.goto p).gpioEn = s.gpioEn := rfl
@[simp] theorem State.spinOnce_keeps_gpioEn : (s.spinOnce).gpioEn = s.gpioEn := rfl
@[simp] theorem State.load_keeps_gpioEn (p : List BusOp) : (State.load p s).gpioEn = s.gpioEn := rfl
@[simp] theorem State.setTemp_keeps_gpioEn (t : Temp) (v : Word) : (s.setTemp t v).gpioEn = s.gpioEn := by cases t <;> rfl
@[simp] theorem State.tookEvent_keeps_gpioEn : s.tookEvent.gpioEn = s.gpioEn := by unfold State.tookEvent; split <;> rfl
@[simp] theorem State.setPin_keeps_uartEn (v : Word) : (s.setPin v).uartEn = s.uartEn := rfl
@[simp] theorem State.setBrr_keeps_uartEn (v : Half) : (s.setBrr v).uartEn = s.uartEn := rfl
@[simp] theorem State.setCr_keeps_uartEn (u t : Bool) : (s.setCr u t).uartEn = s.uartEn := rfl
@[simp] theorem State.setTdr_keeps_uartEn (b : Option Byte) : (s.setTdr b).uartEn = s.uartEn := rfl
@[simp] theorem State.setTsr_keeps_uartEn (f : Option Frame) : (s.setTsr f).uartEn = s.uartEn := rfl
@[simp] theorem State.appendLog_keeps_uartEn (fs : List Frame) : (s.appendLog fs).uartEn = s.uartEn := rfl
@[simp] theorem State.setFault_keeps_uartEn (r : Reason) : (s.setFault r).uartEn = s.uartEn := rfl
@[simp] theorem State.setRdata_keeps_uartEn (v : Word) : (s.setRdata v).uartEn = s.uartEn := rfl
@[simp] theorem State.nextDraw_keeps_uartEn : (s.nextDraw).uartEn = s.uartEn := rfl
@[simp] theorem State.goto_keeps_uartEn (p : Nat) : (s.goto p).uartEn = s.uartEn := rfl
@[simp] theorem State.spinOnce_keeps_uartEn : (s.spinOnce).uartEn = s.uartEn := rfl
@[simp] theorem State.load_keeps_uartEn (p : List BusOp) : (State.load p s).uartEn = s.uartEn := rfl
@[simp] theorem State.setTemp_keeps_uartEn (t : Temp) (v : Word) : (s.setTemp t v).uartEn = s.uartEn := by cases t <;> rfl
@[simp] theorem State.tookEvent_keeps_uartEn : s.tookEvent.uartEn = s.uartEn := by unfold State.tookEvent; split <;> rfl
@[simp] theorem State.setPin_keeps_auxEn (v : Word) : (s.setPin v).auxEn = s.auxEn := rfl
@[simp] theorem State.setBrr_keeps_auxEn (v : Half) : (s.setBrr v).auxEn = s.auxEn := rfl
@[simp] theorem State.setCr_keeps_auxEn (u t : Bool) : (s.setCr u t).auxEn = s.auxEn := rfl
@[simp] theorem State.setTdr_keeps_auxEn (b : Option Byte) : (s.setTdr b).auxEn = s.auxEn := rfl
@[simp] theorem State.setTsr_keeps_auxEn (f : Option Frame) : (s.setTsr f).auxEn = s.auxEn := rfl
@[simp] theorem State.appendLog_keeps_auxEn (fs : List Frame) : (s.appendLog fs).auxEn = s.auxEn := rfl
@[simp] theorem State.setFault_keeps_auxEn (r : Reason) : (s.setFault r).auxEn = s.auxEn := rfl
@[simp] theorem State.setRdata_keeps_auxEn (v : Word) : (s.setRdata v).auxEn = s.auxEn := rfl
@[simp] theorem State.nextDraw_keeps_auxEn : (s.nextDraw).auxEn = s.auxEn := rfl
@[simp] theorem State.goto_keeps_auxEn (p : Nat) : (s.goto p).auxEn = s.auxEn := rfl
@[simp] theorem State.spinOnce_keeps_auxEn : (s.spinOnce).auxEn = s.auxEn := rfl
@[simp] theorem State.load_keeps_auxEn (p : List BusOp) : (State.load p s).auxEn = s.auxEn := rfl
@[simp] theorem State.setTemp_keeps_auxEn (t : Temp) (v : Word) : (s.setTemp t v).auxEn = s.auxEn := by cases t <;> rfl
@[simp] theorem State.tookEvent_keeps_auxEn : s.tookEvent.auxEn = s.auxEn := by unfold State.tookEvent; split <;> rfl
@[simp] theorem State.setClk_keeps_txg (v : Word) : (s.setClk v).txg = s.txg := rfl
@[simp] theorem State.setBrr_keeps_txg (v : Half) : (s.setBrr v).txg = s.txg := rfl
@[simp] theorem State.setCr_keeps_txg (u t : Bool) : (s.setCr u t).txg = s.txg := rfl
@[simp] theorem State.setTdr_keeps_txg (b : Option Byte) : (s.setTdr b).txg = s.txg := rfl
@[simp] theorem State.setTsr_keeps_txg (f : Option Frame) : (s.setTsr f).txg = s.txg := rfl
@[simp] theorem State.appendLog_keeps_txg (fs : List Frame) : (s.appendLog fs).txg = s.txg := rfl
@[simp] theorem State.setFault_keeps_txg (r : Reason) : (s.setFault r).txg = s.txg := rfl
@[simp] theorem State.setRdata_keeps_txg (v : Word) : (s.setRdata v).txg = s.txg := rfl
@[simp] theorem State.nextDraw_keeps_txg : (s.nextDraw).txg = s.txg := rfl
@[simp] theorem State.goto_keeps_txg (p : Nat) : (s.goto p).txg = s.txg := rfl
@[simp] theorem State.spinOnce_keeps_txg : (s.spinOnce).txg = s.txg := rfl
@[simp] theorem State.load_keeps_txg (p : List BusOp) : (State.load p s).txg = s.txg := rfl
@[simp] theorem State.setTemp_keeps_txg (t : Temp) (v : Word) : (s.setTemp t v).txg = s.txg := by cases t <;> rfl
@[simp] theorem State.tookEvent_keeps_txg : s.tookEvent.txg = s.txg := by unfold State.tookEvent; split <;> rfl
@[simp] theorem State.setClk_keeps_txe (v : Word) : (s.setClk v).txe = s.txe := rfl
@[simp] theorem State.setPin_keeps_txe (v : Word) : (s.setPin v).txe = s.txe := rfl
@[simp] theorem State.setBrr_keeps_txe (v : Half) : (s.setBrr v).txe = s.txe := rfl
@[simp] theorem State.setCr_keeps_txe (u t : Bool) : (s.setCr u t).txe = s.txe := rfl
@[simp] theorem State.setTsr_keeps_txe (f : Option Frame) : (s.setTsr f).txe = s.txe := rfl
@[simp] theorem State.appendLog_keeps_txe (fs : List Frame) : (s.appendLog fs).txe = s.txe := rfl
@[simp] theorem State.setFault_keeps_txe (r : Reason) : (s.setFault r).txe = s.txe := rfl
@[simp] theorem State.setRdata_keeps_txe (v : Word) : (s.setRdata v).txe = s.txe := rfl
@[simp] theorem State.nextDraw_keeps_txe : (s.nextDraw).txe = s.txe := rfl
@[simp] theorem State.goto_keeps_txe (p : Nat) : (s.goto p).txe = s.txe := rfl
@[simp] theorem State.spinOnce_keeps_txe : (s.spinOnce).txe = s.txe := rfl
@[simp] theorem State.load_keeps_txe (p : List BusOp) : (State.load p s).txe = s.txe := rfl
@[simp] theorem State.setTemp_keeps_txe (t : Temp) (v : Word) : (s.setTemp t v).txe = s.txe := by cases t <;> rfl
@[simp] theorem State.tookEvent_keeps_txe : s.tookEvent.txe = s.txe := by unfold State.tookEvent; split <;> rfl
@[simp] theorem State.setBrr_keeps_pinVisible (v : Half) : (s.setBrr v).pinVisible = s.pinVisible := rfl
@[simp] theorem State.setCr_keeps_pinVisible (u t : Bool) : (s.setCr u t).pinVisible = s.pinVisible := rfl
@[simp] theorem State.setTdr_keeps_pinVisible (b : Option Byte) : (s.setTdr b).pinVisible = s.pinVisible := rfl
@[simp] theorem State.setTsr_keeps_pinVisible (f : Option Frame) : (s.setTsr f).pinVisible = s.pinVisible := rfl
@[simp] theorem State.appendLog_keeps_pinVisible (fs : List Frame) : (s.appendLog fs).pinVisible = s.pinVisible := rfl
@[simp] theorem State.setFault_keeps_pinVisible (r : Reason) : (s.setFault r).pinVisible = s.pinVisible := rfl
@[simp] theorem State.setRdata_keeps_pinVisible (v : Word) : (s.setRdata v).pinVisible = s.pinVisible := rfl
@[simp] theorem State.nextDraw_keeps_pinVisible : (s.nextDraw).pinVisible = s.pinVisible := rfl
@[simp] theorem State.goto_keeps_pinVisible (p : Nat) : (s.goto p).pinVisible = s.pinVisible := rfl
@[simp] theorem State.spinOnce_keeps_pinVisible : (s.spinOnce).pinVisible = s.pinVisible := rfl
@[simp] theorem State.load_keeps_pinVisible (p : List BusOp) : (State.load p s).pinVisible = s.pinVisible := rfl
@[simp] theorem State.setTemp_keeps_pinVisible (t : Temp) (v : Word) : (s.setTemp t v).pinVisible = s.pinVisible := by cases t <;> rfl
@[simp] theorem State.tookEvent_keeps_pinVisible : s.tookEvent.pinVisible = s.pinVisible := by unfold State.tookEvent; split <;> rfl
@[simp] theorem State.setClk_keeps_busy (v : Word) : (s.setClk v).busy = s.busy := rfl
@[simp] theorem State.setPin_keeps_busy (v : Word) : (s.setPin v).busy = s.busy := rfl
@[simp] theorem State.setBrr_keeps_busy (v : Half) : (s.setBrr v).busy = s.busy := rfl
@[simp] theorem State.setCr_keeps_busy (u t : Bool) : (s.setCr u t).busy = s.busy := rfl
@[simp] theorem State.appendLog_keeps_busy (fs : List Frame) : (s.appendLog fs).busy = s.busy := rfl
@[simp] theorem State.setFault_keeps_busy (r : Reason) : (s.setFault r).busy = s.busy := rfl
@[simp] theorem State.setRdata_keeps_busy (v : Word) : (s.setRdata v).busy = s.busy := rfl
@[simp] theorem State.nextDraw_keeps_busy : (s.nextDraw).busy = s.busy := rfl
@[simp] theorem State.goto_keeps_busy (p : Nat) : (s.goto p).busy = s.busy := rfl
@[simp] theorem State.spinOnce_keeps_busy : (s.spinOnce).busy = s.busy := rfl
@[simp] theorem State.load_keeps_busy (p : List BusOp) : (State.load p s).busy = s.busy := rfl
@[simp] theorem State.setTemp_keeps_busy (t : Temp) (v : Word) : (s.setTemp t v).busy = s.busy := by cases t <;> rfl
@[simp] theorem State.tookEvent_keeps_busy : s.tookEvent.busy = s.busy := by unfold State.tookEvent; split <;> rfl
@[simp] theorem State.setPin_keeps_engineOn (v : Word) : (s.setPin v).engineOn = s.engineOn := rfl
@[simp] theorem State.setBrr_keeps_engineOn (v : Half) : (s.setBrr v).engineOn = s.engineOn := rfl
@[simp] theorem State.setTdr_keeps_engineOn (b : Option Byte) : (s.setTdr b).engineOn = s.engineOn := rfl
@[simp] theorem State.setTsr_keeps_engineOn (f : Option Frame) : (s.setTsr f).engineOn = s.engineOn := rfl
@[simp] theorem State.appendLog_keeps_engineOn (fs : List Frame) : (s.appendLog fs).engineOn = s.engineOn := rfl
@[simp] theorem State.setFault_keeps_engineOn (r : Reason) : (s.setFault r).engineOn = s.engineOn := rfl
@[simp] theorem State.setRdata_keeps_engineOn (v : Word) : (s.setRdata v).engineOn = s.engineOn := rfl
@[simp] theorem State.nextDraw_keeps_engineOn : (s.nextDraw).engineOn = s.engineOn := rfl
@[simp] theorem State.goto_keeps_engineOn (p : Nat) : (s.goto p).engineOn = s.engineOn := rfl
@[simp] theorem State.spinOnce_keeps_engineOn : (s.spinOnce).engineOn = s.engineOn := rfl
@[simp] theorem State.load_keeps_engineOn (p : List BusOp) : (State.load p s).engineOn = s.engineOn := rfl
@[simp] theorem State.setTemp_keeps_engineOn (t : Temp) (v : Word) : (s.setTemp t v).engineOn = s.engineOn := by cases t <;> rfl
@[simp] theorem State.tookEvent_keeps_engineOn : s.tookEvent.engineOn = s.engineOn := by unfold State.tookEvent; split <;> rfl

end Sys2Proof.Machine
end

