-- ==== Sys2Proof/Laws/Ops.lean ====
section
/-! SUPPORT. One lemma per shared operation: everything it can do, which later proofs cite instead of unfolding it. -/

namespace Sys2Proof.Machine

/-- `raise` answers a next state: FAULT recorded and nothing else (R151). -/
theorem raise_next {r : Reason} {s t : State} : raise r s = .next t ↔ t = s.setFault r := by
  simp only [raise, Host.Outcome.next.injEq, eq_comm]

/-- With FAULT clear the guard of R23 is not felt. -/
theorem unlessFaulted_of_none {s : State} (h : s.fault = none) (k : Result) : unlessFaulted s k = k := by
  simp only [unlessFaulted, h]

/-- With FAULT set nothing has a meaning (R23). -/
theorem unlessFaulted_of_some {s : State} {r : Reason} (h : s.fault = some r) (k : Result) :
    unlessFaulted s k = .fault (.undefined r) := by
  simp only [unlessFaulted, h]

/-- What a guarded operation can answer as a next state (R23). -/
theorem unlessFaulted_next {s t : State} {k : Result} :
    unlessFaulted s k = .next t ↔ s.fault = none ∧ k = .next t := by
  cases h : s.fault with
  | none => simp [unlessFaulted_of_none h]
  | some r => simp [unlessFaulted_of_some h]

/-- What one check can answer as a next state (R39): it raises, or the transaction goes on. -/
theorem check_next {bad : Bool} {r : Reason} {s t : State} {k : Result} :
    check bad r s k = .next t ↔ (bad = true ∧ t = s.setFault r) ∨ (bad = false ∧ k = .next t) := by
  cases bad <;> simp [check, raise_next]

/-- What a transaction on a gated register can answer as a next state (R38). -/
theorem gated_next {en : Bool} {s t : State} {k : Result} :
    gated en s k = .next t ↔
      s.fault = none ∧ ((en = false ∧ t = s.setFault .gatedAccess) ∨ (en = true ∧ k = .next t)) := by
  simp [gated, unlessFaulted_next, check_next]

/-- Watching the pin changes nothing but the mark of the frame on the line (R86). -/
theorem watchPin_eq (s : State) :
    s.watchPin = s.setTsr (if s.pinVisible then s.tsr else s.tsr.map Frame.spoil) := by
  unfold State.watchPin
  split <;> rfl

/-- A cleared mark is all that `spoil` changes (R86, R172). -/
@[simp] theorem spoil_data (f : Frame) : f.spoil.data = f.data := rfl
@[simp] theorem spoil_brr (f : Frame) : f.spoil.brr = f.brr := rfl
@[simp] theorem spoil_ok (f : Frame) : f.spoil.ok = false := rfl

/-- TX_LOAD: when it is enabled and what it does (R110). -/
theorem txLoad_some {s t : State} :
    s.txLoad = some t ↔ s.engineOn = true ∧ s.tsr = none ∧
      ∃ b, s.tdr = some b ∧ t = (s.setTsr (some ⟨b, s.brr, s.pinVisible⟩)).setTdr none := by
  unfold State.txLoad
  cases h1 : s.engineOn <;> cases h2 : s.tdr <;> cases h3 : s.tsr <;> simp [eq_comm]

/-- TX_DONE: when it is enabled and what it does (R111). -/
theorem txDone_some {s t : State} :
    s.txDone = some t ↔ s.engineOn = true ∧
      ∃ f, s.tsr = some f ∧ t = (s.appendLog [f]).setTsr none := by
  unfold State.txDone
  cases h1 : s.engineOn <;> cases h3 : s.tsr <;> simp [eq_comm]

/-- The engine's turn: TX_LOAD, or TX_DONE, or nothing (R112). -/
theorem engineStep_cases (s : State) :
    s.txLoad = some s.engineStep ∨ s.txDone = some s.engineStep ∨ s.engineStep = s := by
  unfold State.engineStep
  cases h : s.txLoad <;> cases h' : s.txDone <;> simp

/-- What one transaction can answer as a next state: its instruction's, or a reason recorded by the decoder's checks
(R33, R34, R51). -/
theorem transaction_next {c : Command} {s t : State} (h : transaction c s = .next t) :
    (∃ i, decode c = .ok i ∧ exec i s = .next t) ∨
    (s.fault = none ∧ ∃ r, t = s.setFault r ∧
      (decode c = .error .badAccessSize ∧ r = .badAccessSize ∨ decode c = .error .misaligned ∧ r = .misaligned)) := by
  unfold transaction at h
  split at h
  · rename_i i hi; exact .inl ⟨i, hi, h⟩
  · simp at h
  · rename_i hd
    rw [unlessFaulted_next, raise_next] at h
    exact .inr ⟨h.1, _, h.2, .inl ⟨hd, rfl⟩⟩
  · rename_i hd
    rw [unlessFaulted_next, raise_next] at h
    exact .inr ⟨h.1, _, h.2, .inr ⟨hd, rfl⟩⟩

/-- What a completed transaction can leave: a fault recorded and the bus master where it was, or the result taken and
the bus master moved on (R157, R62). -/
theorem complete_next {op : BusOp} {r : Result} {u : State} (h : op.complete r = .next u) :
    ∃ t, r = .next t ∧ ((t.fault.isSome = true ∧ u = t) ∨ (t.fault = none ∧ u = (op.receive t).goto (t.pos + 1))) := by
  unfold BusOp.complete at h
  split at h
  · rename_i t
    refine ⟨t, rfl, ?_⟩
    cases hf : t.fault <;> simp_all [eq_comm]
  · simp at h
  · simp at h

/-- What one operation of the bus master can leave: its transaction's completion, or its control form. -/
theorem run_next {op : BusOp} {s u : State} (h : op.run s = .next u) :
    (∃ c, op.command s = some c ∧ op.complete (transaction c s) = .next u) ∨
    (op.command s = none ∧ u = op.control s) := by
  unfold BusOp.run at h
  split at h
  · rename_i c hc; exact .inl ⟨c, hc, h⟩
  · rename_i hc; simp only [Host.Outcome.next.injEq] at h; exact .inr ⟨hc, h.symm⟩

/-- The operations that issue no transaction are the control forms (R146). -/
theorem command_none {op : BusOp} {s : State} : op.command s = none ↔ ∃ p, op.leave s.t0 s.pos = some p := by
  cases op <;> simp [BusOp.command, BusOp.leave]

/-- One turn of each control form (R130, R134, R140, R142). -/
@[simp] theorem control_backUnlessTxe (n : Nat) (s : State) : (BusOp.backUnlessTxe n).control s =
    s.goto (if s.t0.getLsbD Config.txeBit then s.pos + 1 else s.pos - n) := rfl
@[simp] theorem control_aheadIfTxe (b : Bool) (n : Nat) (s : State) : (BusOp.aheadIfTxe b n).control s =
    s.goto (s.pos + if s.t0.getLsbD Config.txeBit = b then n else 1) := rfl
@[simp] theorem control_delay (n : Nat) (s : State) : (BusOp.delay n).control s =
    if s.spin < n then s.spinOnce else s.goto (s.pos + 1) := by
  simp [BusOp.control, BusOp.leave, BusOp.spinning]
@[simp] theorem control_back (n : Nat) (s : State) : (BusOp.back n).control s = s.goto (s.pos - n) := rfl

/-- What one turn of an operation as a control form can leave: an iteration done, or the form left behind; and a
transaction is none. -/
theorem control_cases (op : BusOp) (s : State) :
    (∃ p, op.leave s.t0 s.pos = some p ∧ (op.control s = s.spinOnce ∨ op.control s = s.goto p)) ∨
    (op.leave s.t0 s.pos = none ∧ op.control s = s) := by
  unfold BusOp.control
  cases h : op.leave s.t0 s.pos with
  | none => exact .inr ⟨rfl, rfl⟩
  | some p => exact .inl ⟨p, rfl, by cases op.spinning s <;> simp⟩

/-- More forms allowed do not hurt. -/
theorem endsQuietly_succ {prog : List BusOp} {v : Word} {k p : Nat} (h : endsQuietly prog v k p = true) :
    endsQuietly prog v (k + 1) p = true := by
  induction k generalizing p with
  | zero =>
    rw [endsQuietly, Option.isNone_iff_eq_none] at h
    rw [endsQuietly, h]
  | succ k ih =>
    rw [endsQuietly] at h ⊢
    cases ho : prog[p]? with
    | none => rfl
    | some op =>
      rw [ho] at h
      obtain ⟨q, hq, h⟩ := (Option.any_eq_true _ _).1 h
      exact (Option.any_eq_true _ _).2 ⟨q, hq, ih h⟩

/-- A control form left behind on a quiet way to the end leaves a quiet way to the end. -/
theorem endsQuietly_leave {prog : List BusOp} {v : Word} {k p q : Nat} {op : BusOp} (h : endsQuietly prog v k p = true)
    (ho : prog[p]? = some op) (hq : op.leave v p = some q) : endsQuietly prog v k q = true := by
  cases k with
  | zero => simp [endsQuietly, ho] at h
  | succ k =>
    simp only [endsQuietly, ho, hq, Option.any_some] at h
    exact endsQuietly_succ h

/-- What the bus master's turn can leave. -/
theorem busStep_next {s u : State} (h : busStep s = .next u) :
    (∃ op, s.prog[s.pos]? = some op ∧ op.run s = .next u) ∨ (s.prog[s.pos]? = none ∧ u = s) := by
  unfold busStep at h
  split at h
  · rename_i op hop; exact .inl ⟨op, hop, h⟩
  · rename_i hop; simp only [Host.Outcome.next.injEq] at h; exact .inr ⟨hop, h.symm⟩

/-- What a step can leave: FAULT was clear, and one of the three agents took its turn (R8, R9). -/
theorem step_next {s u : State} (h : step s = .next u) :
    s.fault = none ∧
    ((s.nextEvent = .busMaster ∧ busStep s.tookEvent = .next u) ∨
     (s.nextEvent = .engine ∧ u = s.tookEvent.engineStep) ∨
     (s.nextEvent = .reset ∧ u = s.tookEvent.environmentReset)) := by
  unfold step at h
  rw [unlessFaulted_next] at h
  obtain ⟨hf, h⟩ := h
  refine ⟨hf, ?_⟩
  cases he : s.nextEvent <;> simp_all [runEvent, eq_comm]

/-- Everything an instruction can leave (R70 to R97, R36): FAULT was clear, and it recorded a reason and changed nothing
else, or it had its effect. -/
theorem exec_next {i : Instr} {s t : State} (h : exec i s = .next t) :
    s.fault = none ∧
    ((∃ r, t = s.setFault r) ∨
     (match i with
      | .clkRd => t = s.setRdata s.clk
      | .clkWr w => t = (s.setClk w).watchPin
      | .pinRd => s.gpioEn = true ∧ t = s.setRdata s.pin
      | .pinWr w => s.gpioEn = true ∧ t = (s.setPin w).watchPin
      | .srRd => s.uartEn = true ∧ t = (s.setRdata (srValue (Config.srOther s.draws) s.txe)).nextDraw
      | .srWr _ => s.uartEn = true ∧ t = s
      | .drWr w => s.uartEn = true ∧ drReserved w = false ∧ s.ue = true ∧ s.te = true ∧ s.tdr = none ∧
          Config.brrMin ≤ s.brr.toNat ∧ t = s.setTdr (some (drByte w))
      | .drRd => s.uartEn = true ∧ t = (s.setRdata (Config.drRead s.draws)).nextDraw
      | .brrRd => s.uartEn = true ∧ t = s.setRdata (s.brr.setWidth 32)
      | .brrWr w => s.uartEn = true ∧ brrReserved w = false ∧ s.ue = false ∧ t = s.setBrr (brrField w)
      | .crRd => s.uartEn = true ∧ t = s.setRdata (crValue s.ue s.te)
      | .crWr w => s.uartEn = true ∧ crReserved w = false ∧
          (s.busy = true → crUe w = true ∧ crTe w = true) ∧ t = s.setCr (crUe w) (crTe w)
      | .unmappedRd _ _ => False
      | .unmappedWr _ _ _ => False)) := by
  cases i <;>
    simp only [exec, execClkRd, execClkWr, execPinRd, execPinWr, execSrRd, execSrWr, execDrWr, execDrRd, execBrrRd,
      execBrrWr, execCrRd, execCrWr, execUnmappedRd, execUnmappedWr, gated_next, unlessFaulted_next, check_next,
      raise_next, Host.Outcome.next.injEq, Bool.not_eq_true', Bool.not_eq_false', decide_eq_true_eq,
      decide_eq_false_iff_not, Nat.not_lt, Bool.and_eq_true, Bool.and_eq_false_iff, State.txe,
      Option.isNone_iff_eq_none] at h <;>
    refine ⟨h.1, ?_⟩ <;>
    have h := h.2
  case clkRd => exact .inr h.symm
  case clkWr => exact .inr h.symm
  case pinRd => rcases h with ⟨_, h⟩ | ⟨he, h⟩; exacts [.inl ⟨_, h⟩, .inr ⟨he, h.symm⟩]
  case pinWr => rcases h with ⟨_, h⟩ | ⟨he, h⟩; exacts [.inl ⟨_, h⟩, .inr ⟨he, h.symm⟩]
  case srRd => rcases h with ⟨_, h⟩ | ⟨he, h⟩; exacts [.inl ⟨_, h⟩, .inr ⟨he, h.symm⟩]
  case srWr => rcases h with ⟨_, h⟩ | ⟨he, h⟩; exacts [.inl ⟨_, h⟩, .inr ⟨he, h.symm⟩]
  case drRd => rcases h with ⟨_, h⟩ | ⟨he, h⟩; exacts [.inl ⟨_, h⟩, .inr ⟨he, h.symm⟩]
  case brrRd => rcases h with ⟨_, h⟩ | ⟨he, h⟩; exacts [.inl ⟨_, h⟩, .inr ⟨he, h.symm⟩]
  case crRd => rcases h with ⟨_, h⟩ | ⟨he, h⟩; exacts [.inl ⟨_, h⟩, .inr ⟨he, h.symm⟩]
  case drWr =>
    rcases h with ⟨_, h⟩ | ⟨he, ⟨_, h⟩ | ⟨hr, ⟨_, h⟩ | ⟨⟨hu, ht⟩, ⟨_, h⟩ | ⟨hd, ⟨_, h⟩ | ⟨hb, h⟩⟩⟩⟩⟩
    · exact .inl ⟨_, h⟩
    · exact .inl ⟨_, h⟩
    · exact .inl ⟨_, h⟩
    · exact .inl ⟨_, h⟩
    · exact .inl ⟨_, h⟩
    · exact .inr ⟨he, hr, hu, ht, by simpa using hd, hb, h.symm⟩
  case brrWr =>
    rcases h with ⟨_, h⟩ | ⟨he, ⟨_, h⟩ | ⟨hr, ⟨_, h⟩ | ⟨hu, h⟩⟩⟩
    · exact .inl ⟨_, h⟩
    · exact .inl ⟨_, h⟩
    · exact .inl ⟨_, h⟩
    · exact .inr ⟨he, hr, hu, h.symm⟩
  case crWr =>
    rcases h with ⟨_, h⟩ | ⟨he, ⟨_, h⟩ | ⟨hr, ⟨_, h⟩ | ⟨hb, h⟩⟩⟩
    · exact .inl ⟨_, h⟩
    · exact .inl ⟨_, h⟩
    · exact .inl ⟨_, h⟩
    · refine .inr ⟨he, hr, fun hbusy => ?_, h.symm⟩
      rcases hb with hb | hb
      · simp [hbusy] at hb
      · exact hb
  case unmappedRd => exact .inl ⟨_, h⟩
  case unmappedWr => exact .inl ⟨_, h⟩

end Sys2Proof.Machine
end

