-- ==== Sys2Proof/Laws/PerInstr.lean ====
section
/-! SUPPORT. What holds of every instruction as syntax, one lemma per constructor: its canonical word spells a
transaction, of its own direction (spec/30_encoding.md R50, R51). -/

namespace Sys2Proof.Laws.EncodedFields

/-- SIZE is not the reserved one, and W says whether it is a write (R50, R51 (1)). -/
def Statement (i : Instr) : Prop :=
  sizeField (encode i) ≠ 0b11 ∧ writeField (encode i) = i.isWrite

/-- A read of a register has these fields. -/
theorem read_fields (r : Reg) : sizeField (readCommand r) ≠ 0b11 ∧ writeField (readCommand r) = false := by
  simp [readCommand]

/-- A write of a register has these fields. -/
theorem write_fields (r : Reg) (v : Word) :
    sizeField (writeCommand r v) ≠ 0b11 ∧ writeField (writeCommand r v) = true := by
  simp [writeCommand]

theorem clkRd : Statement .clkRd := read_fields .clk
theorem clkWr (wdata : Word) : Statement (.clkWr wdata) := write_fields .clk wdata
theorem pinRd : Statement .pinRd := read_fields .pin
theorem pinWr (wdata : Word) : Statement (.pinWr wdata) := write_fields .pin wdata
theorem srRd : Statement .srRd := read_fields .sr
theorem srWr (wdata : Word) : Statement (.srWr wdata) := write_fields .sr wdata
theorem drWr (wdata : Word) : Statement (.drWr wdata) := write_fields .dr wdata
theorem drRd : Statement .drRd := read_fields .dr
theorem brrRd : Statement .brrRd := read_fields .brr
theorem brrWr (wdata : Word) : Statement (.brrWr wdata) := write_fields .brr wdata
theorem crRd : Statement .crRd := read_fields .cr
theorem crWr (wdata : Word) : Statement (.crWr wdata) := write_fields .cr wdata
theorem unmappedRd (size : Size) (addr : Word) : Statement (.unmappedRd size addr) := by
  cases size <;> simp [Statement, encode, sizeCode, Instr.isWrite]
theorem unmappedWr (size : Size) (addr wdata : Word) : Statement (.unmappedWr size addr wdata) := by
  cases size <;> simp [Statement, encode, sizeCode, Instr.isWrite]

end Sys2Proof.Laws.EncodedFields
end

