-- ==== Sys2Proof/Laws/Step.lean ====
section
/-! SUPPORT. What one step can do to the block, said once: every invariant of the block is a case analysis of
`step_effect`. Then which words touch a register, in the spec's own words. -/

namespace Sys2Proof.Machine

open Sys2Proof.Safety

theorem SameBlock_refl (s : State) : SameBlock s s := ⟨rfl, rfl, rfl, rfl, rfl, rfl, rfl, rfl, rfl⟩

/-- Using up an event touches nothing of the block. -/
theorem SameBlock_tookEvent (s : State) : SameBlock s.tookEvent s := by simp [SameBlock]

/-- Taking a result and moving on touches nothing of the block (R24, R25). -/
theorem SameBlock_receive_goto (op : BusOp) (t : State) (p : Nat) : SameBlock ((op.receive t).goto p) t := by
  cases op <;> simp [BusOp.receive, SameBlock]

/-- The control forms touch nothing of the block (R146). -/
theorem SameBlock_control (op : BusOp) (s : State) : SameBlock (op.control s) s := by
  rcases control_cases op s with ⟨p, _, h | h⟩ | ⟨_, h⟩ <;> rw [h] <;> simp [SameBlock]

/-- An operation's command word does not depend on the schedule. -/
@[simp] theorem command_tookEvent (op : BusOp) (s : State) : op.command s.tookEvent = op.command s := by
  cases op with
  | wr r v =>
    cases v with
    | lit w => rfl
    | clear t m => cases t <;> simp [BusOp.command, Source.value, State.temp]
    | set t m => cases t <;> simp [BusOp.command, Source.value, State.temp]
  | issue c => rfl
  | rd t r => rfl
  | backUnlessTxe n => rfl
  | aheadIfTxe b n => rfl
  | delay n => rfl
  | back n => rfl

/-- Everything a step can do (R8, R9, R47, R157): FAULT was clear, and the environment reset, or the engine had its
turn, or the bus master did nothing to the block, or it raised, or its transaction had its instruction's effect. -/
theorem step_effect {s t : State} (h : step s = .next t) :
    s.fault = none ∧
    ((s.nextEvent = .reset ∧ t = s.tookEvent.environmentReset) ∨
     (s.nextEvent = .engine ∧ t = s.tookEvent.engineStep) ∨
     (s.nextEvent = .busMaster ∧
       ((SameBlock t s ∧ ∀ op, s.prog[s.pos]? = some op → op.command s = none) ∨
        (∃ r, t = s.tookEvent.setFault r) ∨
        ∃ op c i x, s.prog[s.pos]? = some op ∧ op.command s = some c ∧ decode c = .ok i ∧
          exec i s.tookEvent = .next x ∧ x.fault = none ∧ t = (op.receive x).goto (x.pos + 1)))) := by
  obtain ⟨hf, ⟨he, hb⟩ | ⟨he, rfl⟩ | ⟨he, rfl⟩⟩ := step_next h
  · refine ⟨hf, .inr (.inr ⟨he, ?_⟩)⟩
    rcases busStep_next hb with ⟨op, hop, hr⟩ | ⟨hnone, rfl⟩
    · simp only [State.tookEvent_prog, State.tookEvent_pos] at hop
      rcases run_next hr with ⟨c, hc, hcomp⟩ | ⟨hc, rfl⟩
      · rw [command_tookEvent] at hc
        obtain ⟨x, htr, hx⟩ := complete_next hcomp
        rcases transaction_next htr with ⟨i, hi, hex⟩ | ⟨_, r, rfl, _⟩
        · rcases hx with ⟨hsome, rfl⟩ | ⟨hnone, rfl⟩
          · obtain ⟨_, ⟨r, rfl⟩ | heff⟩ := exec_next hex
            · exact .inr (.inl ⟨r, rfl⟩)
            · refine absurd hsome ?_
              have h0 : s.tookEvent.fault = none := by simpa using hf
              cases i <;> simp only [watchPin_eq] at heff <;> simp_all
          · exact .inr (.inr ⟨op, c, i, x, hop, hc, hi, hex, hnone, rfl⟩)
        · rcases hx with ⟨_, rfl⟩ | ⟨hnone, _⟩
          · exact .inr (.inl ⟨r, rfl⟩)
          · simp at hnone
      · rw [command_tookEvent] at hc
        refine .inl ⟨?_, fun op' hop' => ?_⟩
        · have h1 := SameBlock_control op s.tookEvent
          have h2 := SameBlock_tookEvent s
          simp_all [SameBlock]
        · rw [hop] at hop'; cases hop'; exact hc
    · simp only [State.tookEvent_prog, State.tookEvent_pos] at hnone
      exact .inl ⟨SameBlock_tookEvent s, fun op hop => by simp [hnone] at hop⟩
  · exact ⟨hf, .inr (.inl ⟨he, rfl⟩)⟩
  · exact ⟨hf, .inl ⟨he, rfl⟩⟩

/-- `RD reg` is that register's read (R59, R62). -/
theorem transaction_readCommand (r : Reg) (s : State) :
    transaction (readCommand r) s = exec (registerOp r false 0) s := by
  rw [transaction, readCommand, decode_register]

/-- `WR reg, v` is that register's write (R59, R62). -/
theorem transaction_writeCommand (r : Reg) (v : Word) (s : State) :
    transaction (writeCommand r v) s = exec (registerOp r true v) s := by
  rw [transaction, writeCommand, decode_register]

/-- A byte in common, as an inequality (R32). -/
theorem rangeMeets_iff_overlaps (a : Word) (n : Nat) (hn : 0 < n) (r : Word) :
    rangeMeets a n r = true ↔ Overlaps a n r := by
  simp only [rangeMeets, Overlaps, Bool.and_eq_true, decide_eq_true_eq]
  constructor
  · rintro ⟨⟨h1, h2⟩, h3⟩
    refine ⟨h1, ?_⟩
    by_cases h : a.toNat ≤ r.toNat
    · exact ⟨r.toNat - a.toNat, 0, by omega, by omega, by omega⟩
    · exact ⟨0, a.toNat - r.toNat, by omega, by omega, by omega⟩
  · rintro ⟨h1, k, j, hk, hj, h⟩
    omega

/-- The decoder's test is the spec's: some register has a byte in common with the range (R36). -/
theorem overlapsRegister_iff_touches (a : Word) (sz : Size) : overlapsRegister a sz = true ↔ Touches a sz := by
  have hn : 0 < sizeBytes sz := by cases sz <;> decide
  simp only [overlapsRegister, List.any_eq_true, Touches, rangeMeets_iff_overlaps a _ hn]
  constructor
  · rintro ⟨r, _, h⟩
    exact ⟨r, h⟩
  · rintro ⟨r, h⟩
    exact ⟨r, by cases r <;> simp [allRegs], h⟩

/-- No register has a misaligned address (R5). -/
theorem regAt_misaligned {a : Word} (h : a.extractLsb' 0 2 ≠ 0) : regAt a = none := by
  simp only [regAt, allRegs, List.find?_eq_none, beq_iff_eq]
  rintro r - rfl
  revert h
  cases r <;> decide

/-- Each register is found at its own address (R5: the six addresses are pairwise distinct). -/
theorem regAt_regAddr (r : Reg) : regAt (regAddr r) = some r := by cases r <;> decide

/-- An aligned word access that touches a register is at its address (R34). -/
theorem touches_aligned {a : Word} (h : a.extractLsb' 0 2 = 0) (ht : Touches a .word) : ∃ r, regAddr r = a := by
  obtain ⟨r, _, k, j, hk, hj, he⟩ := ht
  have h4 : a.toNat % 4 = 0 := by simpa using congrArg BitVec.toNat h
  have hr : (regAddr r).toNat % 4 = 0 := by cases r <;> decide
  exact ⟨r, BitVec.eq_of_toNat_eq (by simp only [sizeBytes] at hk; omega)⟩

end Sys2Proof.Machine
end

