-- ==== Sys2Proof/Laws/Run.lean ====
section
/-! SUPPORT. Runs under a schedule, one step at a time: an induction over the length of a run is one over its schedule. -/

namespace Sys2Proof.Machine

open Sys2Proof.Safety

/-- A run whose first step answers a next state goes on from there. -/
theorem coreRun_next {M : Host.Core} (k : Nat) {s t : M.State} (h : M.step s = .next t) : M.run (k + 1) s = M.run k t := by
  simp only [Host.Core.run, h]

/-- A run whose first step faults ends with that fault. -/
theorem coreRun_fault {M : Host.Core} (k : Nat) {s : M.State} {r : M.Fault} (h : M.step s = .fault r) :
    M.run (k + 1) s = .fault r := by
  simp only [Host.Core.run, h]

/-- A run whose first step is refused ends with that refusal. -/
theorem coreRun_refused {M : Host.Core} (k : Nat) {s : M.State} {r : M.Refusal} (h : M.step s = .refused r) :
    M.run (k + 1) s = .refused r := by
  simp only [Host.Core.run, h]

/-- The runs of the claims are the host's. -/
theorem coreRun_eq_runSteps (k : Nat) (s : State) : Sys2Proof.core.run k s = runSteps k s := by
  induction k generalizing s with
  | zero => rfl
  | succ k ih =>
    rw [runSteps]
    cases h : step s with
    | next t => exact (coreRun_next (M := Sys2Proof.core) k h).trans (ih t)
    | fault r => exact coreRun_fault (M := Sys2Proof.core) k h
    | refused r => exact coreRun_refused (M := Sys2Proof.core) k h

/-- A step with a scheduled event is that event's effect (R47). -/
theorem step_scheduled {s : State} {e : Event} {es : List Event} (hf : s.fault = none) (he : s.events = e :: es) :
    step s = runEvent e { s with events := es } := by
  rw [step, unlessFaulted_of_none hf, State.nextEvent, State.tookEvent, he]

/-- An instruction leaves the schedule alone. -/
theorem exec_keeps_events {i : Instr} {s t : State} (h : exec i s = .next t) : t.events = s.events := by
  obtain ⟨_, ⟨r, rfl⟩ | h⟩ := exec_next h
  · rfl
  · cases i <;> simp only [watchPin_eq] at h <;> simp_all

/-- No event's effect touches the events still to come. -/
theorem runEvent_keeps_events {e : Event} {s t : State} (h : runEvent e s = .next t) : t.events = s.events := by
  cases e with
  | engine =>
    simp only [runEvent, Host.Outcome.next.injEq] at h
    subst h
    rcases engineStep_cases s with h | h | h
    · obtain ⟨_, _, b, _, h⟩ := txLoad_some.1 h
      rw [h]; simp
    · obtain ⟨_, f, _, h⟩ := txDone_some.1 h
      rw [h]; simp
    · rw [h]
  | reset =>
    simp only [runEvent, Host.Outcome.next.injEq] at h
    subst h
    simp [State.environmentReset]
  | busMaster =>
    rcases busStep_next h with ⟨op, _, hr⟩ | ⟨_, rfl⟩
    · rcases run_next hr with ⟨c, _, hc⟩ | ⟨_, rfl⟩
      · obtain ⟨x, hx, hu⟩ := complete_next hc
        have hxe : x.events = s.events := by
          rcases transaction_next hx with ⟨i, _, h⟩ | ⟨_, r, rfl, _⟩
          · exact exec_keeps_events h
          · rfl
        rcases hu with ⟨_, rfl⟩ | ⟨_, rfl⟩
        · exact hxe
        · cases op <;> simpa [BusOp.receive] using hxe
      · rcases control_cases op s with ⟨p, _, h | h⟩ | ⟨_, h⟩ <;> rw [h] <;> simp
    · rfl

/-- No step at all: the state with no event to come. -/
theorem runUnder_zero (schedule : Nat → Event) (s : State) : runUnder schedule 0 s = .next { s with events := [] } := rfl

/-- The first step of a run under a schedule, and the run that follows it under the rest of the schedule. -/
theorem runUnder_succ (schedule : Nat → Event) (k : Nat) {s : State} (hf : s.fault = none) :
    runUnder schedule (k + 1) s =
      match runEvent (schedule 0) { s with events := (List.range k).map fun n => schedule (n + 1) } with
      | .next t => runUnder (fun n => schedule (n + 1)) k t
      | .fault r => .fault r
      | .refused r => .refused r := by
  have hl : (List.range (k + 1)).map schedule = schedule 0 :: (List.range k).map fun n => schedule (n + 1) := by
    rw [List.range_succ_eq_map, List.map_cons, List.map_map]; rfl
  have hs : step { s with events := (List.range (k + 1)).map schedule } =
      runEvent (schedule 0) { s with events := (List.range k).map fun n => schedule (n + 1) } :=
    step_scheduled (s := { s with events := (List.range (k + 1)).map schedule }) hf hl
  rw [runUnder, runSteps, hs]
  cases h : runEvent (schedule 0) { s with events := (List.range k).map fun n => schedule (n + 1) } with
  | next t =>
    have he := runEvent_keeps_events h
    show runSteps k t = runSteps k _
    congr 1
    cases t
    simp_all
  | fault r => rfl
  | refused r => rfl

end Sys2Proof.Machine
end

