-- ==== Sys2Proof/Tests/Slice0.lean ====
section
/-! SUPPORT. Tests: expected results are those of spec/95_test_vectors.md (the vector is named) or read off the rule
named. Then, for each statement with hypotheses, a concrete case that meets them together. -/

namespace Sys2Proof.Tests

open Sys2Proof.Machine Sys2Proof.Safety

/-- The next state, if there is one. -/
def nextOf (r : Result) : Option State :=
  match r with
  | .next t => some t
  | .fault _ => none
  | .refused _ => none

/-- The end state of P1 (INIT), with nothing in the bus master. -/
def ready : State :=
  { State.reset with clk := 0x4005, pin := 0x444444B4, brr := 0x341, ue := true, te := true }

/-- The frame of 'A'. -/
def frameA : Frame := ⟨0x41, 0x341, true⟩

/-- Both buffers occupied. -/
def sending : State := { ready with tdr := some 0x42, tsr := some frameA }

/-- The next turn is this agent's. -/
def turn (e : Event) (s : State) : State := { s with events := [e] }

-- Well-formedness: each check refuses a term.
theorem test_wf_read_on_register : (Instr.unmappedRd .byte 0x40013803).wellFormed = false := by decide
theorem test_wf_write_on_register : (Instr.unmappedWr .word 0x400137FE 0).wellFormed = false := by decide
theorem test_wf_write_too_wide : (Instr.unmappedWr .byte 0x10 0x100).wellFormed = false := by decide
theorem test_wf_half_fits : (Instr.unmappedWr .half 0x40013810 0xFFFF).wellFormed = true := by decide

-- Decoding: the words of R59 (first the three bits SIZE ++ W), as the table numbers them.
theorem test_decode_clkRd : decodeTableWord 72 0x44002101800000000 = some .clkRd := by decide
theorem test_decode_clkWr : decodeTableWord 72 0x54002101800004005 = some (.clkWr 0x4005) := by decide
theorem test_decode_pinRd : decodeTableWord 72 0x44001080400000000 = some .pinRd := by decide
theorem test_decode_pinWr : decodeTableWord 72 0x540010804444444B4 = some (.pinWr 0x444444B4) := by decide
theorem test_decode_srRd : decodeTableWord 72 0x44001380000000000 = some .srRd := by decide
/-- V-SR-6: WDATA of a read takes no part. -/
theorem test_decode_srRd_wdata : decodeTableWord 72 0x440013800DEADBEEF = some .srRd := by decide
theorem test_decode_srWr : decodeTableWord 72 0x540013800FFFFFFFF = some (.srWr 0xFFFFFFFF) := by decide
theorem test_decode_drWr : decodeTableWord 72 0x54001380400000041 = some (.drWr 0x41) := by decide
theorem test_decode_drRd : decodeTableWord 72 0x44001380400000000 = some .drRd := by decide
theorem test_decode_brrRd : decodeTableWord 72 0x44001380800000000 = some .brrRd := by decide
theorem test_decode_brrWr : decodeTableWord 72 0x54001380800000341 = some (.brrWr 0x341) := by decide
theorem test_decode_crRd : decodeTableWord 72 0x44001380C00000000 = some .crRd := by decide
theorem test_decode_crWr : decodeTableWord 72 0x54001380C00002008 = some (.crWr 0x2008) := by decide
/-- V-ACC-7. -/
theorem test_decode_unmappedRd : decodeTableWord 72 0x0400137FF00000000 = some (.unmappedRd .byte 0x400137FF) := by decide
/-- V-ACC-8. -/
theorem test_decode_unmappedWr : decodeTableWord 72 0x500000000FFFFFFFF = some (.unmappedWr .word 0 0xFFFFFFFF) := by decide
/-- V-ACC-10: the range does not wrap. -/
theorem test_decode_top : decodeTableWord 72 0x4FFFFFFFE00000000 = some (.unmappedRd .word 0xFFFFFFFE) := by decide
/-- The word of CR.WR 0x2008 written bit by bit: SIZE 10, W 1, ADDR 0x4001380C, WDATA 0x2008. -/
theorem test_decode_bits :
    decode 0b1010100000000000001001110000000110000000000000000000010000000001000#67 = .ok (.crWr 0x2008) := by rfl
/-- V-ACC-1, V-ACC-3: size before alignment. -/
theorem test_decode_byte : decode 0x04001380000000000 = .error .badAccessSize := by rfl
theorem test_decode_half_misaligned : decode 0x24001380100000000 = .error .badAccessSize := by rfl
/-- V-ACC-4, V-ACC-5. -/
theorem test_decode_misaligned : decode 0x44001380200000000 = .error .misaligned := by rfl
theorem test_decode_misaligned_below : decode 0x4400137FE00000000 = .error .misaligned := by rfl
/-- V-ACC-11. -/
theorem test_decode_reserved : decode 0x64001380000000000 = .error .reservedEncoding := by rfl
theorem test_encode_drWr : encode (.drWr 0x41) = 0x54001380400000041 := by decide
theorem test_encode_unmappedWr : encode (.unmappedWr .half 0x40013810 0x41) = 0x34001381000000041 := by decide

-- Constants of R57 and fields of R14, R19.
theorem test_masks : clkMask = 0x4005 ∧ grpMask = 0xF0 ∧ grpAfPp = 0xB0 ∧ ueMask = 0x2000 ∧ teMask = 0x8 ∧ txeMask = 0x80 := by
  decide
theorem test_fields : brrMant 0x341 = 0x34 ∧ brrFrac 0x341 = 1 ∧ groupMode 0b1011 = 0b11 ∧ groupCnf 0b1011 = 0b10 := by decide

-- Instructions.
/-- V-CLK-3. -/
theorem test_clkRd : (nextOf (exec .clkRd ready)).map (·.rdata) = some 0x4005 := by decide
/-- V-CLK-9: clearing AUX_EN clears the mark of the frame on the line. -/
theorem test_clkWr_mark :
    (nextOf (exec (.clkWr 0x4004) sending)).map (fun t => (t.clk, t.tsr)) = some (0x4004, some ⟨0x41, 0x341, false⟩) := by
  decide
/-- V-PIN-1. -/
theorem test_pinRd_gated : nextOf (exec .pinRd State.reset) = some { State.reset with fault := some .gatedAccess } := by decide
/-- V-PIN-4: only GPIO_EN gates PIN. -/
theorem test_pinRd : (nextOf (exec .pinRd { State.reset with clk := 4 })).map (·.rdata) = some 0x44444444 := by decide
/-- V-PIN-10. -/
theorem test_pinWr_mark :
    (nextOf (exec (.pinWr 0x44444404) sending)).map (fun t => (t.pin, t.tsr)) =
      some (0x44444404, some ⟨0x41, 0x341, false⟩) := by decide
/-- V-PIN-2. -/
theorem test_pinWr_gated : (nextOf (exec (.pinWr 0x444444B4) State.reset)).map (·.pin) = some 0x44444444 := by decide
/-- V-SR-1, V-SR-2, whatever the draw. -/
theorem test_srValue_txe (d : Word) : (srValue d true).getLsbD 7 = true ∧ (srValue d false).getLsbD 7 = false := by
  simp [srValue, txeMask, bitIn, bitMask, Config.txeBit]
/-- V-SR-4. -/
theorem test_srRd_gated : (nextOf (exec .srRd { ready with clk := 4 })).map (·.fault) = some (some .gatedAccess) := by decide
/-- V-SR-5. -/
theorem test_srWr : nextOf (exec (.srWr 0xFFFFFFFF) sending) = some sending := by decide
/-- V-DR-8: accepted with a frame on the line. -/
theorem test_drWr : (nextOf (exec (.drWr 0x42) { ready with tsr := some frameA })).map (fun t => (t.tdr, t.tsr)) =
    some (some 0x42, some frameA) := by decide
/-- V-DR-12: reserved bits are checked before the enables. -/
theorem test_drWr_order : (nextOf (exec (.drWr 0x141) { ready with ue := false, te := false })).map (·.fault) =
    some (some .reservedBitSet) := by decide
/-- V-DR-14: TDR untouched. -/
theorem test_drRd : (nextOf (exec .drRd sending)).map (·.tdr) = some (some 0x42) := by decide
/-- V-BR-2. -/
theorem test_brrRd : (nextOf (exec .brrRd ready)).map (·.rdata) = some 0x341 := by decide
/-- V-BR-5, V-BR-4. -/
theorem test_brrWr : (nextOf (exec (.brrWr 0x45) { ready with ue := false })).map (·.brr) = some 0x45 := by decide
theorem test_brrWr_enabled : (nextOf (exec (.brrWr 0x341) ready)).map (·.fault) = some (some .brrWriteWhileEnabled) := by decide
/-- V-CR-2. -/
theorem test_crRd : (nextOf (exec .crRd ready)).map (·.rdata) = some 0x2008 := by decide
/-- V-CR-3, V-CR-5. -/
theorem test_crWr : (nextOf (exec (.crWr 8) ready)).map (fun t => (t.ue, t.te)) = some (false, true) := by decide
theorem test_crWr_busy : (nextOf (exec (.crWr 0x2000) { ready with tsr := some frameA })).map (·.fault) =
    some (some .disableWhileBusy) := by decide
/-- V-ACC-6, V-ACC-8. -/
theorem test_unmappedRd : nextOf (exec (.unmappedRd .word 0x40013810) ready) =
    some { ready with fault := some .unmappedAddress } := by decide
theorem test_unmappedWr : nextOf (exec (.unmappedWr .word 0 0xFFFFFFFF) ready) =
    some { ready with fault := some .unmappedAddress } := by decide
/-- R23: the run ends at the first fault. -/
theorem test_faulted : exec .clkRd { ready with fault := some .misaligned } = .fault (.undefined .misaligned) := by rfl

-- The engine, reset, the line.
/-- V-ENG-1. -/
theorem test_txLoad : ({ ready with tdr := some 0x41 } : State).txLoad = some { ready with tsr := some frameA } := by decide
/-- V-ENG-5. -/
theorem test_txLoad_invisible :
    ({ ready with tdr := some 0x41, pin := 0x44444444 } : State).engineStep.tsr = some ⟨0x41, 0x341, false⟩ := by decide
/-- V-ENG-2, V-ENG-3. -/
theorem test_txDone : sending.txLoad = none ∧ sending.engineStep = { ready with tdr := some 0x42, txlog := [frameA] } := by decide
/-- V-ENG-6. -/
theorem test_engine_frozen : ({ sending with clk := 5 } : State).engineStep = { sending with clk := 5 } := by decide
/-- P6: the cut frame logged not-ok, the waiting byte lost. -/
theorem test_reset : sending.environmentReset = { State.reset with txlog := [⟨0x41, 0x341, false⟩] } := by decide
/-- V-ENG-7, V-ENG-8. -/
theorem test_frame_A : frameBits 0x41 = [false, true, false, false, false, false, false, true, false, true] := by decide
theorem test_frame_CR : frameBits 0x0D = [false, true, false, true, true, false, false, false, false, true] := by decide
theorem test_frame_time : bitPeriod 0x341 = 833 ∧ frameTime 0x341 = 8330 := by decide
/-- V-PIN-11 to V-PIN-13. -/
theorem test_pin_visible : ready.pinVisible = true ∧ ({ ready with pin := 0x44444444 } : State).pinVisible = false ∧
    ({ ready with clk := 0x4004 } : State).pinVisible = false := by decide
/-- R117: the idle line is 1; of 'A' at divisor 833, period 833 begins its bit 0, the last of the ten bits is the stop bit. -/
theorem test_levels : ready.line.levelAt 5 = some true ∧ sending.line.levelAt 832 = some false ∧
    sending.line.levelAt 833 = some true ∧ sending.line.levelAt 1666 = some false ∧
    sending.line.levelAt 8329 = some true := by decide
theorem test_pin_level (o : Nat) : ready.txLevelAt o 0 = true ∧ sending.txLevelAt o 0 = false := ⟨rfl, rfl⟩
/-- R85, U12: any value while AUX_EN is 0, and for a frame whose mark is cleared. -/
theorem test_pin_any (o n : Nat) : ({ ready with clk := 0x4004 } : State).txLevelAt o n = Config.pinLevel o n ∧
    Frame.levelAt o ⟨0x42, 0x341, false⟩ n = Config.pinLevel o n := ⟨rfl, rfl⟩
/-- R118 (a). -/
theorem test_bytes_seen : bytesSeen [frameA, ⟨0x42, 0x341, false⟩] = [0x41] ∧
    waveform [frameA, ⟨0x42, 0x341, false⟩] = [some frameA.line, none] := by decide
/-- R35: the byte at ADDR is the low one. -/
theorem test_register_byte : registerByte 0x12345678 0 = 0x78 ∧ registerByte 0x12345678 3 = 0x12 := by decide

-- The driver.
/-- V-BRR-2, V-BRR-8, V-BRR-9. -/
theorem test_brrOf : brrOf 72000000 115200 = some 0x271 ∧ brrOf 8000000 57600 = some 0x08B ∧ brrOf 1000 16 = some 0x03F := by decide
/-- V-BRR-14, V-BRR-16. -/
theorem test_brrOf_none : brrOf 8000000 1000000 = none ∧ brrOf 0 9600 = none := by decide
/-- S6: "AB" is two ready-poll/write cycles, and the terminator is not sent. -/
theorem test_send_string : (DriverOp.sendString [0x41, 0x42, 0, 0x43]).expand = some (sendByteOps 0x41 ++ sendByteOps 0x42) := by decide
/-- R134: two reads at most, the write only from one that returned TXE = 1, and failure otherwise. -/
theorem test_bounded : (DriverOp.sendByteBounded 0x41 2).expand = some [.rd .t0 .sr, .aheadIfTxe true 3, .rd .t0 .sr,
    .aheadIfTxe false 2, .wr .dr (.lit 0x41)] := by decide
theorem test_bounded_fails : (nextOf (step (turn .busMaster
    { ready with prog := sendByteBoundedOps 0x41 2, pos := 3, t0 := 0xFFFFFF7F }))).map
      (fun t => (programOver t, t.boundedSent 2)) = some (true, false) := by decide
/-- R62: `RD.B @0x4001_3800`. -/
theorem test_syntax : readAt .byte 0x40013800 = .issue 0x04001380000000000 ∧
    writeAt .word 0x4001380C 0x2008 = .issue 0x54001380C00002008 := by decide
/-- V-SS-1. -/
theorem test_send_empty : (DriverOp.sendString [0]).expand = some [] := by decide
/-- R141: eleven transactions. -/
theorem test_init : DriverOp.init.expand = some (clockEnableOps ++ pinConfigOps ++ uartSetupOps 0x341) := by decide
/-- R142: the loop is 36 operations for the message, the delay, and the branch back over all of them. -/
theorem test_main_loop : mainLoopOps.length = 38 ∧ mainLoopOps[37]? = some (.back 37) := by
  constructor <;> rfl
/-- V-SU-5. -/
theorem test_setup_refused : State.reset.startDriver (.uartSetup 8000000 122) = .refused .divisorUndefined := by rfl

-- Steps.
/-- V-CLK-2, through the fetch. -/
theorem test_step : (nextOf (step (State.reset.withFetchWord 72 0x54002101800004005))).map (fun t => (t.clk, t.pos)) =
    some (0x4005, 1) := by decide
/-- P4 (a): the fault is recorded and the bus master stays. -/
theorem test_step_fault : (nextOf (step (State.reset.withFetchWord 72 0x54001380400000041))).map (fun t => (t.fault, t.pos)) =
    some (some .gatedAccess, 0) := by decide
/-- V-ACC-11. -/
theorem test_step_refused : step (State.reset.withFetchWord 72 0x64001380000000000) = .refused .reservedEncoding := by rfl
/-- V-ACC-2, V-ACC-4. -/
theorem test_step_size : (nextOf (step (ready.withFetchWord 72 0x34001380400000041))).map (·.fault) = some (some .badAccessSize) := by
  decide
theorem test_step_misaligned : (nextOf (step (ready.withFetchWord 72 0x44001380200000000))).map (·.fault) = some (some .misaligned) := by
  decide
/-- P2 step 4, through the schedule. -/
theorem test_step_engine : (nextOf (step (turn .engine sending))).map (·.txlog) = some [frameA] := by decide
theorem test_step_reset : (nextOf (step (turn .reset sending))).map (·.clk) = some 0 := by decide
/-- R82: the second half of a read-modify-write writes what the first half read. -/
theorem test_step_modify : (nextOf (step (turn .busMaster
    { ready with prog := pinConfigOps, pos := 1, t0 := 0x87654321 }))).map (·.pin) = some 0x87654301 := by decide

/-
What meets the hypotheses of the statements. `ready` has FAULT clear, all three clock bits, UE, TE and a usable divisor.
-/

theorem test_meets_no_fault : ready.fault = none ∧ State.reset.fault = none := by decide
theorem test_meets_gates_on : ready.fault = none ∧ ready.clk.getLsbD Config.gpioEnBit = true ∧
    ready.clk.getLsbD Config.uartEnBit = true ∧ ready.gpioEn = true ∧ ready.uartEn = true := by decide
theorem test_meets_gates_off : State.reset.fault = none ∧ State.reset.clk.getLsbD Config.gpioEnBit = false ∧
    State.reset.clk.getLsbD Config.uartEnBit = false := by decide
/-- ClkWriteStoresAndMarksFrame: an unseen frame, a step that leaves it there, a value that clears UART_EN, a right mark. -/
theorem test_meets_frame_stays : ∃ t, step (turn .busMaster { sending with tsr := some ⟨0x41, 0x341, false⟩ }) = .next t ∧
    t.tsr = some ⟨0x41, 0x341, false⟩ := ⟨_, rfl, rfl⟩
theorem test_meets_clears_uart : (0#32).getLsbD Config.uartEnBit = false ∧
    ∃ t, exec (.clkWr 0) sending = .next t ∧ t.tsr = some ⟨0x41, 0x341, false⟩ := ⟨rfl, _, rfl, rfl⟩
theorem test_meets_mark : sending.fault = none ∧ MarkMeansVisible sending := by
  refine ⟨rfl, fun f hf _ => ?_⟩
  decide
theorem test_meets_register : (Instr.pinWr 0).register = some .pin ∧ (Instr.crWr 0).register = some .cr := by decide
/-- PinWriteStoresAndMarksFrame: a group that is not 0b1011. -/
theorem test_meets_other_group : pinGroup 0x44444404 Config.txGroup ≠ Config.afPp := by decide
/-- SrReadReportsTxe: the bits beside TXE_BIT, at both ends of the word. -/
theorem test_meets_other_bits : 0 < 32 ∧ 0 ≠ Config.txeBit ∧ 31 < 32 ∧ 31 ≠ Config.txeBit := by decide
/-- DrWriteFillsTdr: each branch of the chain, at its boundary. -/
theorem test_meets_drWr_branches :
    (nextOf (exec (.drWr 0x41) State.reset)).map (·.fault) = some (some .gatedAccess) ∧
    (nextOf (exec (.drWr 0x100) ready)).map (·.fault) = some (some .reservedBitSet) ∧
    (nextOf (exec (.drWr 0xFF) { ready with te := false })).map (·.fault) = some (some .dataWriteTxDisabled) ∧
    (nextOf (exec (.drWr 0xFF) { ready with tdr := some 0 })).map (·.fault) = some (some .dataWriteNotReady) ∧
    (nextOf (exec (.drWr 0xFF) { ready with brr := 15 })).map (·.fault) = some (some .badDivisor) ∧
    (nextOf (exec (.drWr 0xFF) { ready with brr := 16 })).map (·.tdr) = some (some 0xFF) := by decide
/-- BrrWriteNeedsDisabled: each branch, at its boundary. -/
theorem test_meets_brrWr_branches :
    (nextOf (exec (.brrWr 0x10000) { ready with ue := false })).map (·.fault) = some (some .reservedBitSet) ∧
    (nextOf (exec (.brrWr 0xFFFF) ready)).map (·.fault) = some (some .brrWriteWhileEnabled) ∧
    (nextOf (exec (.brrWr 0xFFFF) { ready with ue := false })).map (·.brr) = some 0xFFFF := by decide
/-- CrWriteSetsEnables: each branch, and the invariant with a byte inside. -/
theorem test_meets_crWr_branches :
    (nextOf (exec (.crWr 0x200C) ready)).map (·.fault) = some (some .reservedBitSet) ∧
    (nextOf (exec (.crWr 0x2008) sending)).map (fun t => (t.ue, t.fault)) = some (true, none) ∧
    BusyMeansEnabled sending := by decide
/-- UnmappedRaises, NarrowAccessIsBadAccessSize, MisalignedWordRaises, CommandWordClasses: ranges at a register's edges. -/
theorem test_meets_untouched : ¬ Touches 0x40013810 .word ∧ ¬ Touches 0x400137FF .byte ∧ Touches 0x4001380E .byte := by
  rw [← overlapsRegister_iff_touches, ← overlapsRegister_iff_touches, ← overlapsRegister_iff_touches]
  decide
theorem test_meets_untouched_misaligned : ¬ Touches 0x40013811 .word ∧ (0x40013811 : Word).extractLsb' 0 2 ≠ 0 := by
  rw [← overlapsRegister_iff_touches]
  decide
theorem test_meets_narrow : Size.half ≠ .word ∧ Touches 0x400137FF .half := by
  rw [← overlapsRegister_iff_touches]
  decide
theorem test_meets_misaligned : Touches 0x400137FD .word ∧ (0x400137FD : Word).extractLsb' 0 2 ≠ 0 := by
  rw [← overlapsRegister_iff_touches]
  decide
theorem test_meets_aligned : Touches 0x4001380C .word ∧ (0x4001380C : Word).extractLsb' 0 2 = 0 := by
  rw [← overlapsRegister_iff_touches]
  decide
/-- GatedAccessRaises, last clause; InstructionFrames and the other statements about whatever exec answers. -/
theorem test_meets_exec_next : ∃ t, exec (.drWr 0x41) ready = .next t ∧ t.fault = none ∧ ready.txe = true ∧ t.txe = false :=
  ⟨_, rfl, rfl, rfl, rfl⟩
theorem test_meets_frame_premises : (∀ w, Instr.srRd ≠ .clkWr w) ∧ (∀ w, Instr.srRd ≠ .pinWr w) ∧ (∀ w, Instr.srRd ≠ .drWr w) ∧
    (Instr.clkWr 0).isWrite = true ∧ Instr.brrRd ≠ .srRd ∧ Instr.brrRd ≠ .drRd := by
  refine ⟨?_, ?_, ?_, ?_, ?_, ?_⟩ <;> simp [Instr.isWrite]
/-- FaultEndsTheRun, RaisingChangesOnlyFault. -/
theorem test_meets_faulted : ({ ready with fault := some .badDivisor } : State).fault = some .badDivisor ∧
    (nextOf (transaction 0x44001381000000000 ready)).map (·.fault) = some (some .unmappedAddress) := by decide
theorem test_meets_step_faults : ∃ t, step (State.reset.withFetchWord 72 0x44001380000000000) = .next t ∧
    t.fault = some .gatedAccess := ⟨_, rfl, rfl⟩
/-- TxLoadMovesByteToLine, TxDoneLogsFrame, EngineHasNoOtherStep, TxeFallsOnlyOnDataWrite: the engine's turns. -/
theorem test_meets_load : ({ sending with tsr := none } : State).engineOn = true ∧
    ∃ t, step (turn .engine { sending with tsr := none }) = .next t ∧ t.txe = true := ⟨rfl, _, rfl, rfl⟩
theorem test_meets_done : ∃ t, sending.txDone = some t ∧ sending.tdr ≠ none ∧ t.txLoad.isSome = true :=
  ⟨_, rfl, by decide, rfl⟩
theorem test_meets_idle : (turn .engine ready).nextEvent = .engine ∧ ready.tdr = none ∧ ready.tsr = none := by decide
/-- TxeFallsOnlyOnDataWrite, BytesLeaveInOrder: a step that fills TDR. -/
theorem test_meets_fall : ∃ t, step (ready.withFetchWord 72 0x54001380400000041) = .next t ∧ t.txe = false ∧
    acceptedByte (ready.withFetchWord 72 0x54001380400000041) t = [0x41] := ⟨_, rfl, rfl, rfl⟩
/-- EngineFrozenWhileOff, each way to be off. -/
theorem test_meets_off : ({ ready with clk := 5 } : State).uartEn = false ∧ ({ ready with ue := false } : State).ue = false ∧
    BusyMeansEnabled { ready with te := false } := by decide
/-- EngineDrainsInThreeTurns. -/
theorem test_meets_engine_on : sending.engineOn = true := by decide
/-- The invariants hold of a state with both buffers occupied, and a step leaves it. -/
theorem test_meets_invariants : BusyMeansEnabled sending ∧ LineHasDivisor sending ∧ LogTimed sending := by
  refine ⟨by decide, ?_, ?_⟩
  · intro f hf; cases hf; rfl
  · intro f hf; cases hf
theorem test_meets_step : ∃ t, step (turn .engine sending) = .next t ∧ t.tdr = some 0x42 := ⟨_, rfl, rfl⟩
/-- FrameMarkOnlyFalls: a frame put on the line, and one that a write of PIN hides. -/
theorem test_meets_new_frame : ∃ t, step (turn .engine { sending with tsr := none }) = .next t ∧ t.tsr = some ⟨0x42, 0x341, true⟩ :=
  ⟨_, rfl, rfl⟩
theorem test_meets_hidden : ∃ t, exec (.pinWr 0) sending = .next t ∧ t.fault = none ∧ t.pinVisible = false := ⟨_, rfl, rfl, rfl⟩
/-- LogOnlyGrows: a reset with a frame on the line. -/
theorem test_meets_cut : ∃ t, step (turn .reset sending) = .next t ∧ t.txlog = [⟨0x41, 0x341, false⟩] := ⟨_, rfl, rfl⟩
/-- DrawsNeverReachTheBlock: the same block, other draws and another bus master. -/
theorem test_meets_same_block : SameBlock ready { ready with draws := 7, rdata := 1, prog := [.back 0] } := by decide
/-- RepeatedWrites: each write accepted. -/
theorem test_meets_accepted : ∀ i ∈ [Instr.clkWr 0x4005, .pinWr 0, .srWr 1, .drWr 0x41, .crWr 0x2008],
    (nextOf (exec i ready)).map (·.fault) = some none := by decide
theorem test_meets_brr_accepted : (nextOf (exec (.brrWr 0x45) { ready with ue := false })).map (·.fault) = some none := by decide
/-- ReadReturnsLatestWrite: V-CR-6, both enables written with a byte inside. -/
theorem test_meets_both_enables : sending.busy = true ∧ (0x2008 : Word).getLsbD Config.ueBit = true ∧
    (0x2008 : Word).getLsbD Config.teBit = true ∧ (nextOf (exec (.crWr 0x2008) sending)) = some sending := by decide
/-- ReadReturnsLatestWrite: the conditions on BRR and CR, at the ends of their ranges. -/
theorem test_meets_write_ranges : (0xFFFF : Word).toNat < 2 ^ 16 ∧ ({ ready with ue := false } : State).ue = false ∧
    ready.busy = false ∧ (0x2008 : Word) &&& ~~~(ueMask ||| teMask) = 0 := by decide
/-- StepRunsDecodedInstruction: an operation at the position whose word decodes, and one whose word is reserved. -/
theorem test_meets_fetch : (turn .busMaster { ready with prog := clockEnableOps }).nextEvent = .busMaster ∧
    clockEnableOps[0]? = some (.rd .t0 .clk) ∧ (BusOp.rd .t0 .clk).command ready = some 0x44002101800000000 := by decide
theorem test_meets_fetch_reserved : (BusOp.issue 0x64001380000000000).command ready = some 0x64001380000000000 := by decide
theorem test_meets_fetch_narrow : (BusOp.issue 0x04001380000000000).command ready = some 0x04001380000000000 ∧
    decode 0x04001380000000000 = .error .badAccessSize ∧ decode 0x44001380200000000 = .error .misaligned := ⟨rfl, rfl, rfl⟩
/-- EncodeOfDecode: a narrow write whose word has bits above its size. -/
theorem test_meets_narrow_write : decode 0x10000001012345678 = .ok (.unmappedWr .byte 0x10 0x78) ∧
    writeField 0x10000001012345678 = true ∧ sizeField 0x10000001012345678 = sizeCode .byte ∧
    encode (.unmappedWr .byte 0x10 0x78) = 0x10000001000000078 := ⟨rfl, rfl, rfl, rfl⟩
/-- DecodeOfEncode: a fallback at the edge of a register. -/
theorem test_meets_well_formed : (Instr.unmappedWr .byte 0x40013810 0xFF).wellFormed = true := by decide
/-- DivisorFormsAgree, DivisorCorners. -/
theorem test_meets_divisor : (9600 : Nat) ≠ 0 ∧ brrOf 8000000 9600 = some 0x341 ∧ brrOf 8000000 122 = none := by decide
/-- ClockEnableStepwiseAgrees: an order of the three bits. -/
theorem test_meets_order : [Config.auxEnBit, Config.gpioEnBit, Config.uartEnBit].Perm
    [Config.gpioEnBit, Config.uartEnBit, Config.auxEnBit] := by decide
/-- UartSetupEnablesTransmitter: no byte inside, and a byte inside. -/
theorem test_meets_setup : ready.busy = false ∧ sending.busy = true ∧ sending.uartEn = true := by decide
/-- SendByteWritesOnlyWhenReady: a run that stands before its write, whatever the draw. -/
theorem test_meets_poll_done : ∃ t, runUnder (fun _ => .busMaster) 2 (ready.load (sendByteOps 0x41)) = .next t ∧ t.pos = 2 := by
  have hbit : (srValue (Config.srOther 0) true).getLsbD Config.txeBit = true := by
    simp [srValue, txeMask, bitIn, bitMask, Config.txeBit]
  refine ⟨(BusOp.backUnlessTxe 1).control { ready.load (sendByteOps 0x41) with
    rdata := srValue (Config.srOther 0) true, t0 := srValue (Config.srOther 0) true, draws := 1, pos := 1 }, rfl, ?_⟩
  simp [hbit]
/-- SendByteReadyKept: its premise before the write, and a step from there. -/
theorem test_meets_send_ready : SendByteReady 0x41 (turn .busMaster { ready with prog := sendByteOps 0x41, pos := 2, t0 := 0x80 }) ∧
    ∃ t, step (turn .busMaster { ready with prog := sendByteOps 0x41, pos := 2, t0 := 0x80 }) = .next t ∧ t.pos = 3 :=
  ⟨⟨rfl, by decide, by decide⟩, _, rfl, rfl⟩
theorem test_meets_send_branch : SendByteReady 0x41 { ready with prog := sendByteOps 0x41, pos := 1, t0 := 0x80 } :=
  ⟨rfl, by decide, by decide⟩
/-- LineCarriesFrame: the first and the last clock period of the frame on the line. -/
theorem test_meets_line : sending.tsr = some frameA ∧ ready.tsr = none ∧ 9 < 10 ∧ 832 < frameA.brr.toNat ∧
    sending.pinVisible = true ∧ sending.line.levelAt 8329 = some true ∧
    ({ sending with clk := 0x4004 } : State).pinVisible = false ∧ frameA.ok = true := by decide
/-- SendByteEndsUnderFairness: a fair schedule without reset. -/
theorem test_meets_fair :
    let schedule : Nat → Event := fun n => if n % 2 = 0 then .busMaster else .engine
    TxFair schedule ∧ Fair .busMaster schedule ∧ (∀ n, schedule n ≠ .reset) ∧ Config.brrMin ≤ ready.brr.toNat := by
  refine ⟨fun n => ⟨2 * n + 1, by omega, ?_⟩, fun n => ⟨2 * n, by omega, ?_⟩, fun n => ?_, by decide⟩
  · show (if (2 * n + 1) % 2 = 0 then Event.busMaster else .engine) = .engine
    rw [if_neg (by omega)]
  · show (if 2 * n % 2 = 0 then Event.busMaster else .engine) = .busMaster
    rw [if_pos (by omega)]
  · show (if n % 2 = 0 then Event.busMaster else .engine) ≠ .reset
    split <;> decide
/-- R118 (c): behind the last transaction a DELAY may be left; before one, or in a loop, the run is not over. -/
theorem test_issued_last : final { ready with prog := sendByteOps 0x41 ++ [.delay 9], pos := 3 } = true ∧
    final { ready with prog := sendByteOps 0x41 ++ [.delay 9], pos := 2 } = false ∧
    final { sending with prog := [.delay 9] } = false ∧ final { ready with prog := [.delay 9, .back 1] } = false := by decide
/-- R142: MAIN in its DELAY is not over, for its loop goes on. -/
theorem test_main_not_over : final { ready with prog := mainLoopOps, pos := 36 } = false := by rfl
/-- R134: a bounded poll that has failed issues no write, so it is over before its last branch is taken. -/
theorem test_bounded_over : issuedLast { ready with prog := sendByteBoundedOps 0x41 2, pos := 3, t0 := 0 } = true ∧
    issuedLast { ready with prog := sendByteBoundedOps 0x41 2, pos := 3, t0 := 0x80 } = false := by decide
/-- FinalAndStuckStatesStay: a final state still in a DELAY, and a turn of the bus master from it. -/
theorem test_meets_final_delay : final { ready with prog := [.delay 9], events := [.busMaster] } = true ∧
    (nextOf (step { ready with prog := [.delay 9], events := [.busMaster] })).map (·.spin) = some 1 := by decide
/-- FinalAndStuckStatesStay. -/
theorem test_meets_final : final ready = true ∧ programOver ready = true ∧ stuck { sending with clk := 5 } = true ∧
    (turn .busMaster ready).nextEvent ≠ .reset := by decide

end Sys2Proof.Tests
end

/-! The state's family (spec/10_state.md): first the rules its statements share (what watching the pin, a reset,
the engine's turn and an instruction do to the block), then the statements, each put together from them. -/

namespace Sys2Proof.Proofs

open Sys2Proof Sys2Proof.Machine Sys2Proof.Safety

section Rules

variable (s : State)

/-! Watching the pin (R86) touches the mark of the frame in TSR only. -/

@[simp] theorem watchPin_brr : s.watchPin.brr = s.brr := by rw [watchPin_eq, State.setTsr_brr]
@[simp] theorem watchPin_ue : s.watchPin.ue = s.ue := by rw [watchPin_eq, State.setTsr_ue]
@[simp] theorem watchPin_te : s.watchPin.te = s.te := by rw [watchPin_eq, State.setTsr_te]
@[simp] theorem watchPin_tdr : s.watchPin.tdr = s.tdr := by rw [watchPin_eq, State.setTsr_tdr]
@[simp] theorem watchPin_txlog : s.watchPin.txlog = s.txlog := by rw [watchPin_eq, State.setTsr_txlog]
@[simp] theorem watchPin_busy : s.watchPin.busy = s.busy := by
  rw [watchPin_eq]
  split <;> simp [State.busy]

/-! A reset in mid-run (R171, R172), in the fields the statements below read. -/

@[simp] theorem environmentReset_tdr : s.environmentReset.tdr = none := rfl
@[simp] theorem environmentReset_tsr : s.environmentReset.tsr = none := rfl
@[simp] theorem environmentReset_txlog :
    s.environmentReset.txlog = s.txlog ++ (s.tsr.map Frame.spoil).toList := rfl
@[simp] theorem environmentReset_fault : s.environmentReset.fault = s.fault := rfl

/-- Everything the engine's turn can do (R110 to R112): TX_LOAD moves the byte in TDR to an empty TSR, TX_DONE logs the
frame in TSR, and with neither enabled nothing changes. -/
theorem engineStep_effect :
    (s.engineOn = true ∧ s.tsr = none ∧ s.txLoad = some s.engineStep ∧ ∃ b, s.tdr = some b ∧
      s.engineStep = (s.setTsr (some ⟨b, s.brr, s.pinVisible⟩)).setTdr none) ∨
    (s.engineOn = true ∧ ∃ f, s.tsr = some f ∧ s.engineStep = (s.appendLog [f]).setTsr none) ∨
    s.engineStep = s := by
  rcases engineStep_cases s with h | h | h
  · obtain ⟨hon, htsr, hmove⟩ := txLoad_some.1 h
    exact .inl ⟨hon, htsr, h, hmove⟩
  · exact .inr (.inl (txDone_some.1 h))
  · exact .inr (.inr h)

end Rules

/-- Everything an instruction can do to the block (R70 to R97, R36): it records a reason; or it is a read or SR.WR,
which leave the block alone; or it is one of the five writes with an effect, whose checks have passed. -/
theorem exec_blockEffect {i : Instr} {s t : State} (h : exec i s = .next t) :
    (∃ r, t = s.setFault r) ∨
    SameBlock t s ∨
    (∃ w, i = .clkWr w ∧ t = (s.setClk w).watchPin) ∨
    (∃ w, i = .pinWr w ∧ t = (s.setPin w).watchPin) ∨
    (∃ w, i = .drWr w ∧ s.ue = true ∧ s.te = true ∧ s.tdr = none ∧ Config.brrMin ≤ s.brr.toNat ∧
      t = s.setTdr (some (drByte w))) ∨
    (∃ w, i = .brrWr w ∧ s.ue = false ∧ t = s.setBrr (brrField w)) ∨
    (∃ w, i = .crWr w ∧ (s.busy = true → crUe w = true ∧ crTe w = true) ∧ t = s.setCr (crUe w) (crTe w)) := by
  obtain ⟨-, hraise | h⟩ := exec_next h
  · exact .inl hraise
  refine .inr ?_
  cases i with
  | clkRd =>
    rw [show t = s.setRdata s.clk from h]
    exact .inl (SameBlock_refl s)
  | pinRd | srRd | srWr _ | drRd | brrRd | crRd =>
    obtain ⟨-, ht⟩ := h
    rw [ht]
    exact .inl (SameBlock_refl s)
  | clkWr w => exact .inr (.inl ⟨w, rfl, h⟩)
  | pinWr w => exact .inr (.inr (.inl ⟨w, rfl, h.2⟩))
  | drWr w =>
    obtain ⟨-, -, hue, hte, htdr, hbrr, ht⟩ := h
    exact .inr (.inr (.inr (.inl ⟨w, rfl, hue, hte, htdr, hbrr, ht⟩)))
  | brrWr w =>
    obtain ⟨-, -, hue, ht⟩ := h
    exact .inr (.inr (.inr (.inr (.inl ⟨w, rfl, hue, ht⟩))))
  | crWr w =>
    obtain ⟨-, -, hbusy, ht⟩ := h
    exact .inr (.inr (.inr (.inr (.inr ⟨w, rfl, hbusy, ht⟩))))
  | unmappedRd _ _ | unmappedWr _ _ _ => exact h.elim

/-- No instruction changes TXLOG (R21). -/
theorem exec_keeps_txlog {i : Instr} {s t : State} (h : exec i s = .next t) : t.txlog = s.txlog := by
  obtain ⟨r, rfl⟩ | hsame | ⟨w, -, rfl⟩ | ⟨w, -, rfl⟩ | ⟨w, -, -, -, -, -, rfl⟩ | ⟨w, -, -, rfl⟩ | ⟨w, -, -, rfl⟩ :=
    exec_blockEffect h
  · rfl
  · obtain ⟨-, -, -, -, -, -, -, hlog, -⟩ := hsame
    exact hlog
  · simp
  · simp
  · rfl
  · rfl
  · rfl

/-- TDR is filled by an accepted DR.WR, and changed by no other instruction (R17, R92). -/
theorem exec_tdr {i : Instr} {s t : State} (h : exec i s = .next t) :
    t.tdr = s.tdr ∨ ∃ w, i = .drWr w ∧ t.tdr = some (drByte w) := by
  obtain ⟨r, rfl⟩ | hsame | ⟨w, -, rfl⟩ | ⟨w, -, rfl⟩ | ⟨w, hi, -, -, -, -, rfl⟩ | ⟨w, -, -, rfl⟩ | ⟨w, -, -, rfl⟩ :=
    exec_blockEffect h
  · exact .inl rfl
  · obtain ⟨-, -, -, -, -, htdr, -⟩ := hsame
    exact .inl htdr
  · exact .inl (by simp)
  · exact .inl (by simp)
  · exact .inr ⟨w, hi, rfl⟩
  · exact .inl rfl
  · exact .inl rfl

/-! ### R22: a byte inside means the transmitter is on with a usable divisor -/

/-- The invariant of R22 speaks of the block only. -/
theorem BusyMeansEnabled_of_sameBlock {s t : State} (hsame : SameBlock t s) (hinv : BusyMeansEnabled s) :
    BusyMeansEnabled t := by
  obtain ⟨-, -, hbrr, hue, hte, htdr, htsr, -⟩ := hsame
  simpa only [BusyMeansEnabled, State.busy, hbrr, hue, hte, htdr, htsr] using hinv

/-- With both buffers empty the invariant of R22 asks nothing. -/
theorem BusyMeansEnabled_of_empty {s : State} (htdr : s.tdr = none) (htsr : s.tsr = none) : BusyMeansEnabled s := by
  simp [BusyMeansEnabled, State.busy, htdr, htsr]

/-- DR.WR checks what the invariant asks before it fills TDR; BRR.WR finds UE = 0, so nothing is inside; CR.WR leaves
both bits set while a byte is inside; nothing else touches the registers the invariant reads (R22, R92, R95, R97). -/
theorem exec_keeps_busyMeansEnabled {i : Instr} {s t : State} (hinv : BusyMeansEnabled s) (h : exec i s = .next t) :
    BusyMeansEnabled t := by
  obtain ⟨r, rfl⟩ | hsame | ⟨w, -, rfl⟩ | ⟨w, -, rfl⟩ | ⟨w, -, hue, hte, -, hbrr, rfl⟩ | ⟨w, -, hue, rfl⟩ |
    ⟨w, -, hcr, rfl⟩ := exec_blockEffect h
  · exact hinv
  · exact BusyMeansEnabled_of_sameBlock hsame hinv
  · simpa [BusyMeansEnabled] using hinv
  · simpa [BusyMeansEnabled] using hinv
  · exact fun _ => ⟨hue, hte, hbrr⟩
  · intro hbusy
    obtain ⟨hon, -⟩ := hinv hbusy
    exact absurd (hue.symm.trans hon) Bool.false_ne_true
  · intro hbusy
    obtain ⟨hue, hte⟩ := hcr hbusy
    obtain ⟨-, -, hbrr⟩ := hinv hbusy
    exact ⟨hue, hte, hbrr⟩

/-- A word that is no instruction changes FAULT only, so a transaction keeps the invariant because its instruction does
(R22, R51). -/
theorem transaction_keeps_busyMeansEnabled {c : Command} {s t : State} (hinv : BusyMeansEnabled s)
    (h : transaction c s = .next t) : BusyMeansEnabled t := by
  obtain ⟨i, -, hexec⟩ | ⟨-, r, rfl, -⟩ := transaction_next h
  · exact exec_keeps_busyMeansEnabled hinv hexec
  · exact hinv

/-- The engine moves and logs bytes but brings none in, and writes no register (R22, R110, R111). -/
theorem engineStep_keeps_busyMeansEnabled {s : State} (hinv : BusyMeansEnabled s) : BusyMeansEnabled s.engineStep := by
  obtain ⟨-, -, -, b, htdr, heq⟩ | ⟨-, f, htsr, heq⟩ | heq := engineStep_effect s <;> rw [heq]
  · exact fun _ => hinv (by simp [State.busy, htdr])
  · exact fun _ => hinv (by simp [State.busy, htsr])
  · exact hinv

/-- A reset leaves both buffers empty (R22, R171). -/
theorem environmentReset_busyMeansEnabled (s : State) : BusyMeansEnabled s.environmentReset :=
  BusyMeansEnabled_of_empty (environmentReset_tdr s) (environmentReset_tsr s)

/-- Every step of any agent keeps the invariant of R22. -/
theorem step_keeps_busyMeansEnabled {s t : State} (hinv : BusyMeansEnabled s) (h : step s = .next t) :
    BusyMeansEnabled t := by
  have htook : BusyMeansEnabled s.tookEvent := BusyMeansEnabled_of_sameBlock (SameBlock_tookEvent s) hinv
  obtain ⟨-, ⟨-, rfl⟩ | ⟨-, rfl⟩ | ⟨-, ⟨hsame, -⟩ | ⟨r, rfl⟩ | ⟨op, c, i, x, -, -, -, hexec, -, rfl⟩⟩⟩ := step_effect h
  · exact environmentReset_busyMeansEnabled _
  · exact engineStep_keeps_busyMeansEnabled htook
  · exact BusyMeansEnabled_of_sameBlock hsame hinv
  · exact htook
  · exact BusyMeansEnabled_of_sameBlock (SameBlock_receive_goto op x _) (exec_keeps_busyMeansEnabled htook hexec)

/-- Settles O25: it holds at reset, where both buffers are empty, and is kept by every step and every transaction. -/
theorem busyMeansEnabledKept : Obligations.BusyMeansEnabledKept :=
  ⟨BusyMeansEnabled_of_empty rfl rfl, fun _ _ => step_keeps_busyMeansEnabled,
    fun _ _ _ => transaction_keeps_busyMeansEnabled⟩

/-! ### R21: the two appends to TXLOG -/

/-- The bus master's turn leaves TXLOG as it is; the engine's turn leaves it or appends the frame in TSR; a reset
appends the frame in TSR, if there is one, with its mark cleared (R21, R111, R172). -/
theorem step_txlog {s t : State} (h : step s = .next t) :
    (s.nextEvent = .busMaster ∧ t.txlog = s.txlog) ∨
    (s.nextEvent = .engine ∧ (t.txlog = s.txlog ∨ ∃ f, s.tsr = some f ∧ t.txlog = s.txlog ++ [f])) ∨
    (s.nextEvent = .reset ∧ t.txlog = s.txlog ++ (s.tsr.map Frame.spoil).toList) := by
  obtain ⟨-, ⟨he, rfl⟩ | ⟨he, rfl⟩ | ⟨he, hbus⟩⟩ := step_effect h
  · exact .inr (.inr ⟨he, by simp⟩)
  · refine .inr (.inl ⟨he, ?_⟩)
    obtain ⟨-, -, -, b, -, heq⟩ | ⟨-, f, htsr, heq⟩ | heq := engineStep_effect s.tookEvent <;> rw [heq]
    · exact .inl (by simp)
    · exact .inr ⟨f, by simpa using htsr, by simp⟩
    · exact .inl (by simp)
  · refine .inl ⟨he, ?_⟩
    obtain ⟨⟨-, -, -, -, -, -, -, hlog, -⟩, -⟩ | ⟨r, rfl⟩ | ⟨op, c, i, x, -, -, -, hexec, -, rfl⟩ := hbus
    · exact hlog
    · simp
    · obtain ⟨-, -, -, -, -, -, -, hlog, -⟩ := SameBlock_receive_goto op x (x.pos + 1)
      calc ((op.receive x).goto (x.pos + 1)).txlog = x.txlog := hlog
        _ = s.tookEvent.txlog := exec_keeps_txlog hexec
        _ = s.txlog := State.tookEvent_txlog s

/-- A reset that cuts a frame logs it with its mark cleared (R172). -/
theorem step_reset_txlog {s t : State} {f : Frame} (htsr : s.tsr = some f) (he : s.nextEvent = .reset)
    (h : step s = .next t) : t.txlog = s.txlog ++ [{ f with ok := false }] := by
  obtain ⟨he', -⟩ | ⟨he', -⟩ | ⟨-, hlog⟩ := step_txlog h
  · exact absurd (he.symm.trans he') (by decide)
  · exact absurd (he.symm.trans he') (by decide)
  · rw [hlog, htsr]; rfl

/-- Settles O31, each agent's turn in `step_txlog` and each instruction in `exec_keeps_txlog`. -/
theorem logOnlyGrows : Obligations.LogOnlyGrows := by
  refine ⟨rfl, fun s t h => ?_, fun s t f => step_reset_txlog, fun i s t => exec_keeps_txlog⟩
  obtain ⟨-, hlog⟩ | ⟨he, hlog | ⟨f, htsr, hlog⟩⟩ | ⟨he, hlog⟩ := step_txlog h
  · exact .inl hlog
  · exact .inl hlog
  · exact .inr ⟨f, htsr, .inl ⟨he, hlog⟩⟩
  · cases htsr : s.tsr with
    | none => exact .inl (by simpa [htsr] using hlog)
    | some f => exact .inr ⟨f, rfl, .inr ⟨he, step_reset_txlog htsr he h⟩⟩

/-! ### R16: TXE and TDR -/

/-- TXE is 1 exactly when TDR is empty (R16). -/
theorem txe_eq_true {s : State} : s.txe = true ↔ s.tdr = none := by
  rw [State.txe, Option.isNone_iff_eq_none]

/-- What a read of SR shows in the bit TXE is the flag, whatever the draw (R90). -/
@[simp] theorem srValue_txeBit (draw : Word) (txe : Bool) : (srValue draw txe).getLsbD Config.txeBit = txe := by
  cases txe <;> simp [srValue, txeMask, bitIn, bitMask, Config.txeBit]

/-- What a step can do to TDR (R17, R92, R110, R171): leave it, fill it by the bus master's accepted DR.WR, or empty it
by TX_LOAD or by a reset. -/
theorem step_tdr {s t : State} (h : step s = .next t) :
    t.tdr = s.tdr ∨
    (t.tdr ≠ none ∧ s.nextEvent = .busMaster ∧ t.fault = none ∧
      ∃ op c w, s.prog[s.pos]? = some op ∧ op.command s = some c ∧ decode c = .ok (.drWr w)) ∨
    (t.tdr = none ∧ (s.nextEvent = .reset ∨ (s.nextEvent = .engine ∧ s.tookEvent.txLoad = some t))) := by
  obtain ⟨-, ⟨he, rfl⟩ | ⟨he, rfl⟩ | ⟨he, hbus⟩⟩ := step_effect h
  · exact .inr (.inr ⟨rfl, .inl he⟩)
  · obtain ⟨-, -, hload, b, -, heq⟩ | ⟨-, f, -, heq⟩ | heq := engineStep_effect s.tookEvent
    · exact .inr (.inr ⟨by rw [heq]; rfl, .inr ⟨he, hload⟩⟩)
    · exact .inl (by rw [heq]; simp)
    · exact .inl (by rw [heq]; simp)
  · obtain ⟨⟨-, -, -, -, -, htdr, -⟩, -⟩ | ⟨r, rfl⟩ | ⟨op, c, i, x, hop, hc, hi, hexec, hfault, rfl⟩ := hbus
    · exact .inl htdr
    · exact .inl (by simp)
    · obtain ⟨-, -, -, -, -, htdr, -, -, hf⟩ := SameBlock_receive_goto op x (x.pos + 1)
      obtain hkept | ⟨w, rfl, hfilled⟩ := exec_tdr hexec
      · exact .inl ((htdr.trans hkept).trans (State.tookEvent_tdr s))
      · have hfull : ((op.receive x).goto (x.pos + 1)).tdr ≠ none := by
          rw [htdr, hfilled]
          exact Option.some_ne_none _
        exact .inr (.inl ⟨hfull, he, hf.trans hfault, op, c, w, hop, hc, hi⟩)

/-- Settles O32: the flag is TDR's, so its falls and rises are the changes of TDR listed in `step_tdr`. -/
theorem txeFallsOnlyOnDataWrite : Obligations.TxeFallsOnlyOnDataWrite := by
  refine ⟨fun s => txe_eq_true, fun s t h hs ht => ?_, fun s t h hs ht => ?_, fun s t h hfault => ?_⟩
  · have hempty : s.tdr = none := txe_eq_true.1 hs
    have hfull : t.tdr ≠ none := fun hnone => by simp [txe_eq_true.2 hnone] at ht
    obtain hkept | ⟨-, hwrite⟩ | ⟨hnone, -⟩ := step_tdr h
    · exact absurd (hkept.trans hempty) hfull
    · exact hwrite
    · exact absurd hnone hfull
  · have hfull : s.tdr ≠ none := fun hnone => by simp [txe_eq_true.2 hnone] at hs
    have hempty : t.tdr = none := txe_eq_true.1 ht
    obtain hkept | ⟨hsome, -⟩ | ⟨-, hcause⟩ := step_tdr h
    · exact absurd (hkept.symm.trans hempty) hfull
    · exact absurd hempty hsome
    · exact hcause
  · obtain ⟨-, ⟨r, rfl⟩ | ⟨-, rfl⟩⟩ := exec_next h
    · simp at hfault
    · simp

/-! ### R23: FAULT ends the run -/

/-- With FAULT set every instruction stops with its reason (R23). -/
theorem exec_of_fault {s : State} {r : Reason} (hf : s.fault = some r) (i : Instr) :
    exec i s = .fault (.undefined r) := by
  cases i <;> exact unlessFaulted_of_some hf _

/-- With FAULT set every step stops with its reason (R23). -/
theorem step_of_fault {s : State} {r : Reason} (hf : s.fault = some r) : step s = .fault (.undefined r) :=
  unlessFaulted_of_some hf _

/-- Settles O18: the guard of R23 stands before every instruction and every step, and a reset leaves FAULT alone. -/
theorem faultEndsTheRun : Obligations.FaultEndsTheRun :=
  ⟨rfl, fun s _ hf => ⟨step_of_fault hf, exec_of_fault hf, (environmentReset_fault s).trans hf⟩⟩

/-! ### R22, R171: the invariants after a reset -/

/-- With no frame on the line, what the invariants ask of it holds (R86, R110). -/
theorem LineHasDivisor_of_empty {s : State} (htsr : s.tsr = none) : LineHasDivisor s := by
  simp [LineHasDivisor, htsr]

theorem MarkMeansVisible_of_empty {s : State} (htsr : s.tsr = none) : MarkMeansVisible s := by
  simp [MarkMeansVisible, htsr]

/-- The frame on the line has a divisor that can time it: it has BRR's, and it makes the block busy (R22, R110). -/
theorem line_timed {s : State} {f : Frame} (hbusy : BusyMeansEnabled s) (hline : LineHasDivisor s)
    (htsr : s.tsr = some f) : Config.brrMin ≤ f.brr.toNat := by
  obtain ⟨-, -, hbrr⟩ := hbusy (by simp [State.busy, htsr])
  rwa [hline f htsr]

/-- A reset logs the frame it cuts, whose divisor is a usable one (R172). -/
theorem environmentReset_logTimed {s : State} (hbusy : BusyMeansEnabled s) (hline : LineHasDivisor s)
    (hlog : LogTimed s) : LogTimed s.environmentReset := by
  intro f hf
  rw [environmentReset_txlog, List.mem_append] at hf
  obtain hf | hf := hf
  · exact hlog f hf
  · obtain ⟨g, htsr, rfl⟩ : ∃ g, s.tsr = some g ∧ g.spoil = f := by simpa using hf
    rw [spoil_brr]
    exact line_timed hbusy hline htsr

/-- Settles O28: at reset both buffers and the log are empty. -/
theorem invariantsHoldAtReset : Obligations.InvariantsHoldAtReset := by
  refine ⟨⟨BusyMeansEnabled_of_empty rfl rfl, LineHasDivisor_of_empty rfl, ?_, MarkMeansVisible_of_empty rfl⟩,
    fun s => ⟨environmentReset_busyMeansEnabled s, LineHasDivisor_of_empty rfl, MarkMeansVisible_of_empty rfl⟩,
    fun s => environmentReset_logTimed⟩
  exact fun f hf => absurd hf List.not_mem_nil

/-! ### R26: the start of a run -/

/-- Settles O42: `State.reset` holds the values of R26 field by field, and TXE is 1 because TDR is empty. -/
theorem startOfRun : Obligations.StartOfRun :=
  ⟨rfl, rfl, rfl, rfl, rfl, rfl, txe_eq_true.2 rfl, rfl, rfl, rfl⟩

end Sys2Proof.Proofs

/-! The memory map's family (spec/20_memory.md): first what the shared checks, a command word's transaction and the
single accesses answer, then the statements, each put together from them. -/

namespace Sys2Proof.Proofs

open Sys2Proof Sys2Proof.Machine Sys2Proof.Safety

section Checks

variable {s : State}

/-! The checks of a transaction (R38, R39), each with its outcome known. -/

theorem check_of_true {bad : Bool} (h : bad = true) (r : Reason) (k : Result) :
    check bad r s k = .next (s.setFault r) := by
  rw [check, if_pos h, raise]

theorem check_of_false {bad : Bool} (h : bad = false) (r : Reason) (k : Result) : check bad r s k = k := by
  rw [check, if_neg (by simp [h])]

theorem gated_of_off {enabled : Bool} (hf : s.fault = none) (h : enabled = false) (k : Result) :
    gated enabled s k = .next (s.setFault .gatedAccess) := by
  rw [gated, unlessFaulted_of_none hf, check_of_true (by simp [h])]

theorem gated_of_on {enabled : Bool} (hf : s.fault = none) (h : enabled = true) (k : Result) :
    gated enabled s k = k := by
  rw [gated, unlessFaulted_of_none hf, check_of_false (by simp [h])]

/-- A checked transaction records a reason only if it is the check's own or one recorded behind the check (R39). -/
theorem check_fault_ne {bad : Bool} {r x : Reason} {t : State} {k : Result} (h : check bad r s k = .next t)
    (hr : r ≠ x) (hk : k = .next t → t.fault ≠ some x) : t.fault ≠ some x := by
  obtain ⟨-, rfl⟩ | ⟨-, hgoOn⟩ := check_next.1 h
  · simpa using hr
  · exact hk hgoOn

end Checks

/-! ### R33, R34, R36: the transactions that reach no instruction of a register -/

theorem exec_unmappedRd {s : State} (hf : s.fault = none) (sz : Size) (a : Word) :
    exec (.unmappedRd sz a) s = .next (s.setFault .unmappedAddress) :=
  unlessFaulted_of_none hf _

theorem exec_unmappedWr {s : State} (hf : s.fault = none) (sz : Size) (a v : Word) :
    exec (.unmappedWr sz a v) s = .next (s.setFault .unmappedAddress) :=
  unlessFaulted_of_none hf _

/-- A command word whose byte range touches no register is a fallback operation (R36, R58). -/
theorem decode_of_untouched {sz : Size} {a : Word} (ht : ¬ Touches a sz) (w : Bool) (v : Word) :
    decode (commandWord (sizeCode sz) w a v) = .ok (fallbackOp sz w a v) := by
  rw [← overlapsRegister_iff_touches] at ht
  simp [decode_commandWord, ht]

/-- A command word whose byte range touches a register goes on to the size and alignment checks (R39, R59). -/
theorem decode_of_touched {sz : Size} {a : Word} (ht : Touches a sz) (w : Bool) (v : Word) :
    decode (commandWord (sizeCode sz) w a v) = decodeRegister sz w a v := by
  rw [← overlapsRegister_iff_touches] at ht
  simp [decode_commandWord, ht]

theorem decodeRegister_of_narrow {sz : Size} (hsz : sz ≠ .word) (w : Bool) (a v : Word) :
    decodeRegister sz w a v = .error .badAccessSize := by
  cases sz with
  | byte => rfl
  | half => rfl
  | word => exact absurd rfl hsz

theorem decodeRegister_of_misaligned {a : Word} (ha : a.extractLsb' 0 2 ≠ 0) (w : Bool) (v : Word) :
    decodeRegister .word w a v = .error .misaligned := by
  simp only [decodeRegister, regAt_misaligned ha]

section Transactions

variable {s : State} {c : Command}

theorem transaction_of_ok {i : Instr} (hc : decode c = .ok i) : transaction c s = exec i s := by
  simp only [transaction, hc]

theorem transaction_of_reservedEncoding (hc : decode c = .error .reservedEncoding) :
    transaction c s = .refused .reservedEncoding := by
  simp only [transaction, hc]

theorem transaction_of_badAccessSize (hf : s.fault = none) (hc : decode c = .error .badAccessSize) :
    transaction c s = .next (s.setFault .badAccessSize) := by
  simp only [transaction, hc, unlessFaulted_of_none hf, raise]

theorem transaction_of_misaligned (hf : s.fault = none) (hc : decode c = .error .misaligned) :
    transaction c s = .next (s.setFault .misaligned) := by
  simp only [transaction, hc, unlessFaulted_of_none hf, raise]

/-- A transaction that reaches no register raises, a read as a write (R36). -/
theorem transaction_of_untouched (hf : s.fault = none) {sz : Size} {a : Word} (ht : ¬ Touches a sz) (w : Bool)
    (v : Word) : transaction (commandWord (sizeCode sz) w a v) s = .next (s.setFault .unmappedAddress) := by
  rw [transaction_of_ok (decode_of_untouched ht w v)]
  cases w with
  | false => exact exec_unmappedRd hf sz a
  | true => exact exec_unmappedWr hf sz a _

end Transactions

/-- Settles O13: the fallback operations raise, and a range that touches no register decodes to one of them. -/
theorem unmappedRaises : Obligations.UnmappedRaises :=
  ⟨fun _ sz a hf => exec_unmappedRd hf sz a, fun _ sz a v hf => exec_unmappedWr hf sz a v,
    fun _ _ w _ v hf ht => transaction_of_untouched hf ht w v⟩

/-- Settles O14: the size is the first check, whatever the alignment, the direction and the gate. -/
theorem narrowAccessIsBadAccessSize : Obligations.NarrowAccessIsBadAccessSize :=
  fun _ _ w a v hf hsz ht =>
    transaction_of_badAccessSize hf ((decode_of_touched ht w v).trans (decodeRegister_of_narrow hsz w a v))

/-- Settles O15: no register has a misaligned address, so a misaligned word that touches one is at none of them. -/
theorem misalignedWordRaises : Obligations.MisalignedWordRaises := by
  refine ⟨fun r => by cases r <;> rfl, fun s w a v hf ha ht => ?_, fun s w a v hf _ ht => ?_⟩
  · exact transaction_of_misaligned hf ((decode_of_touched ht w v).trans (decodeRegister_of_misaligned ha w v))
  · exact transaction_of_untouched (sz := .word) hf ht w v

/-! ### R37, R38: the clock gates -/

section Accesses

variable {s : State} {w : Word}

/-! Watching the pin (R86) leaves these too. -/

@[simp] theorem watchPin_fault : s.watchPin.fault = s.fault := by rw [watchPin_eq, State.setTsr_fault]
@[simp] theorem watchPin_clk : s.watchPin.clk = s.clk := by rw [watchPin_eq, State.setTsr_clk]
@[simp] theorem watchPin_pin : s.watchPin.pin = s.pin := by rw [watchPin_eq, State.setTsr_pin]
@[simp] theorem watchPin_gpioEn : s.watchPin.gpioEn = s.gpioEn := by rw [watchPin_eq, State.setTsr_keeps_gpioEn]
@[simp] theorem watchPin_pinVisible : s.watchPin.pinVisible = s.pinVisible := by
  rw [watchPin_eq, State.setTsr_keeps_pinVisible]

/-! What each access answers once its checks have passed (R70 to R97). -/

theorem exec_clkRd (hf : s.fault = none) : exec .clkRd s = .next (s.setRdata s.clk) := unlessFaulted_of_none hf _

theorem exec_clkWr (hf : s.fault = none) : exec (.clkWr w) s = .next (s.setClk w).watchPin :=
  unlessFaulted_of_none hf _

theorem exec_pinRd (hf : s.fault = none) (hen : s.gpioEn = true) : exec .pinRd s = .next (s.setRdata s.pin) :=
  gated_of_on hf hen _

theorem exec_pinWr (hf : s.fault = none) (hen : s.gpioEn = true) :
    exec (.pinWr w) s = .next (s.setPin w).watchPin :=
  gated_of_on hf hen _

theorem exec_srWr (hf : s.fault = none) (hen : s.uartEn = true) : exec (.srWr w) s = .next s :=
  gated_of_on hf hen _

theorem exec_brrRd (hf : s.fault = none) (hen : s.uartEn = true) :
    exec .brrRd s = .next (s.setRdata (s.brr.setWidth 32)) :=
  gated_of_on hf hen _

theorem exec_brrWr (hf : s.fault = none) (hen : s.uartEn = true) (hres : brrReserved w = false) (hue : s.ue = false) :
    exec (.brrWr w) s = .next (s.setBrr (brrField w)) := by
  rw [exec, execBrrWr, gated_of_on hf hen, check_of_false hres, check_of_false hue]

theorem exec_crRd (hf : s.fault = none) (hen : s.uartEn = true) :
    exec .crRd s = .next (s.setRdata (crValue s.ue s.te)) :=
  gated_of_on hf hen _

theorem exec_crWr (hf : s.fault = none) (hen : s.uartEn = true) (hres : crReserved w = false)
    (hbusy : s.busy = true → crUe w = true ∧ crTe w = true) :
    exec (.crWr w) s = .next (s.setCr (crUe w) (crTe w)) := by
  have hchecked : (s.busy && !(crUe w && crTe w)) = false := by
    rw [Bool.and_eq_false_imp]
    intro hb
    obtain ⟨hu, ht⟩ := hbusy hb
    simp [hu, ht]
  rw [exec, execCrWr, gated_of_on hf hen, check_of_false hres, check_of_false hchecked]

/-- A write of DR that finds TDR occupied, where nothing that is checked before fails (R92). -/
theorem exec_drWr_of_occupied (hf : s.fault = none) (hen : s.uartEn = true) (hres : drReserved w = false)
    (hue : s.ue = true) (hte : s.te = true) (htdr : s.tdr ≠ none) :
    exec (.drWr w) s = .next (s.setFault .dataWriteNotReady) := by
  have hbusy : (!s.txe) = true := by simpa [← txe_eq_true] using htdr
  rw [exec, execDrWr, gated_of_on hf hen, check_of_false hres, check_of_false (by simp [hue, hte]),
    check_of_true hbusy]

/-- With both gates open an instruction goes past the gate, and no check behind it records GatedAccess (R38, R39). -/
theorem exec_fault_ne_gatedAccess {i : Instr} {t : State} (hgpio : s.gpioEn = true) (huart : s.uartEn = true)
    (h : exec i s = .next t) : t.fault ≠ some .gatedAccess := by
  obtain ⟨hf, -⟩ := exec_next h
  have hdone {u : State} (heq : (.next u : Result) = .next t) (hu : u.fault = none) : t.fault ≠ some .gatedAccess := by
    cases heq
    simp [hu]
  cases i with
  | clkRd => exact hdone ((exec_clkRd hf).symm.trans h) hf
  | clkWr w => exact hdone ((exec_clkWr hf).symm.trans h) (by simpa using hf)
  | pinRd => exact hdone ((exec_pinRd hf hgpio).symm.trans h) hf
  | pinWr w => exact hdone ((exec_pinWr hf hgpio).symm.trans h) (by simpa using hf)
  | srRd | drRd | brrRd | crRd | srWr _ => exact hdone ((gated_of_on hf huart _).symm.trans h) hf
  | drWr w =>
    exact check_fault_ne ((gated_of_on hf huart _).symm.trans h) (by decide) fun h =>
      check_fault_ne h (by decide) fun h => check_fault_ne h (by decide) fun h =>
      check_fault_ne h (by decide) fun h => hdone h hf
  | brrWr w | crWr w =>
    exact check_fault_ne ((gated_of_on hf huart _).symm.trans h) (by decide) fun h =>
      check_fault_ne h (by decide) fun h => hdone h hf
  | unmappedRd _ _ | unmappedWr _ _ _ =>
    obtain rfl := raise_next.1 ((unlessFaulted_of_none hf _).symm.trans h)
    simp

end Accesses

/-- Settles O17: the gate is the first check of the ten gated operations, and CLK has none. -/
theorem gatedAccessRaises : Obligations.GatedAccessRaises := by
  refine ⟨fun s w hf hen => ⟨?_, ?_⟩, fun s w hf hen => ⟨?_, ?_, ?_, ?_, ?_, ?_, ?_, ?_⟩, fun s w hf => ⟨?_, ?_⟩,
    fun i s t hgpio huart => exec_fault_ne_gatedAccess hgpio huart⟩
  iterate 10 exact gated_of_off hf hen _
  · exact ⟨_, exec_clkRd hf, hf⟩
  · exact ⟨_, exec_clkWr hf, by simpa using hf⟩

/-! ### R40, R44: what each instruction leaves unchanged -/

section Frames

variable {s t : State} {i : Instr}

/-- Watching the pin changes a frame's mark only, so its byte and its divisor stay (R86). -/
theorem watchPin_line (s : State) :
    s.watchPin.tsr.map Frame.data = s.tsr.map Frame.data ∧ s.watchPin.tsr.map Frame.brr = s.tsr.map Frame.brr := by
  rw [watchPin_eq, State.setTsr_tsr]
  split
  · exact ⟨rfl, rfl⟩
  · cases s.tsr <;> exact ⟨rfl, rfl⟩

/-- Each register and buffer is changed by its own write only, and TSR by the two that can hide the pin (R40). -/
theorem exec_keeps_registers (h : exec i s = .next t) :
    ((∀ w, i ≠ .clkWr w) → t.clk = s.clk) ∧
    ((∀ w, i ≠ .pinWr w) → t.pin = s.pin) ∧
    ((∀ w, i ≠ .brrWr w) → t.brr = s.brr) ∧
    ((∀ w, i ≠ .crWr w) → t.ue = s.ue ∧ t.te = s.te) ∧
    ((∀ w, i ≠ .drWr w) → t.tdr = s.tdr) ∧
    ((∀ w, i ≠ .clkWr w) → (∀ w, i ≠ .pinWr w) → t.tsr = s.tsr) := by
  obtain ⟨r, rfl⟩ | hsame | ⟨w, rfl, rfl⟩ | ⟨w, rfl, rfl⟩ | ⟨w, rfl, -, -, -, -, rfl⟩ | ⟨w, rfl, -, rfl⟩ |
    ⟨w, rfl, -, rfl⟩ := exec_blockEffect h
  · simp
  · obtain ⟨hclk, hpin, hbrr, hue, hte, htdr, htsr, -⟩ := hsame
    simp [hclk, hpin, hbrr, hue, hte, htdr, htsr]
  · simp
  · simp
  · simp
  · simp
  · simp

/-- No instruction changes the byte or the divisor of the frame on the line (R18, R86). -/
theorem exec_keeps_line (h : exec i s = .next t) :
    t.tsr.map Frame.data = s.tsr.map Frame.data ∧ t.tsr.map Frame.brr = s.tsr.map Frame.brr := by
  obtain ⟨r, rfl⟩ | hsame | ⟨w, rfl, rfl⟩ | ⟨w, rfl, rfl⟩ | ⟨w, rfl, -, -, -, -, rfl⟩ | ⟨w, rfl, -, rfl⟩ |
    ⟨w, rfl, -, rfl⟩ := exec_blockEffect h
  · exact ⟨rfl, rfl⟩
  · obtain ⟨-, -, -, -, -, -, htsr, -⟩ := hsame
    exact ⟨congrArg _ htsr, congrArg _ htsr⟩
  · exact watchPin_line (s.setClk w)
  · exact watchPin_line (s.setPin w)
  · exact ⟨rfl, rfl⟩
  · exact ⟨rfl, rfl⟩
  · exact ⟨rfl, rfl⟩

/-- No instruction changes the bus master or the schedule, but for the read result, which a read alone sets, and the
count of draws, which SR.RD and DR.RD alone raise (R24, R25, R27). -/
theorem exec_keeps_master (h : exec i s = .next t) :
    (i.isWrite = true → t.rdata = s.rdata) ∧ (i ≠ .srRd → i ≠ .drRd → t.draws = s.draws) ∧
    SameMaster t s ∧ SameSchedule t s := by
  obtain ⟨-, ⟨r, rfl⟩ | heff⟩ := exec_next h
  · simp [SameMaster, SameSchedule]
  cases i with
  | clkRd =>
    obtain rfl : t = s.setRdata s.clk := heff
    simp [Instr.isWrite, SameMaster, SameSchedule]
  | clkWr w =>
    obtain rfl : t = (s.setClk w).watchPin := heff
    simp [watchPin_eq, SameMaster, SameSchedule]
  | pinWr w =>
    obtain ⟨-, rfl⟩ := heff
    simp [watchPin_eq, SameMaster, SameSchedule]
  | pinRd | srRd | drRd | brrRd | crRd | srWr _ =>
    obtain ⟨-, rfl⟩ := heff
    simp [Instr.isWrite, SameMaster, SameSchedule]
  | drWr w =>
    obtain ⟨-, -, -, -, -, -, rfl⟩ := heff
    simp [SameMaster, SameSchedule]
  | brrWr w | crWr w =>
    obtain ⟨-, -, -, rfl⟩ := heff
    simp [SameMaster, SameSchedule]
  | unmappedRd _ _ | unmappedWr _ _ _ => exact heff.elim

end Frames

/-- Settles O33: the registers, the frame on the line, the log and the bus master, each by its own lemma. -/
theorem instructionFrames : Obligations.InstructionFrames := by
  intro i s t h
  obtain ⟨hclk, hpin, hbrr, hcr, htdr, htsr⟩ := exec_keeps_registers h
  obtain ⟨hdata, hdivisor⟩ := exec_keeps_line h
  exact ⟨hclk, hpin, hbrr, hcr, htdr, htsr, hdata, hdivisor, exec_keeps_txlog h, exec_keeps_master h⟩

/-! ### R40: the same write twice -/

section RepeatedWrites

variable {s t : State} {w : Word}

/-- A mark already cleared is not cleared again (R86). -/
@[simp] theorem watchPin_watchPin (s : State) : s.watchPin.watchPin = s.watchPin := by
  by_cases hv : s.pinVisible = true
  · simp [watchPin_eq, hv, State.setTsr]
  · cases htsr : s.tsr <;> simp [watchPin_eq, hv, htsr, State.setTsr, Frame.spoil]

theorem exec_clkWr_again (ht : t.fault = none) (h : exec (.clkWr w) s = .next t) : exec (.clkWr w) t = .next t := by
  obtain ⟨-, ⟨r, rfl⟩ | heff⟩ := exec_next h
  · simp at ht
  · obtain rfl : t = (s.setClk w).watchPin := heff
    have hclk : (s.setClk w).watchPin.setClk w = (s.setClk w).watchPin := by rw [watchPin_eq]; rfl
    rw [exec_clkWr ht, hclk, watchPin_watchPin]

theorem exec_pinWr_again (ht : t.fault = none) (h : exec (.pinWr w) s = .next t) : exec (.pinWr w) t = .next t := by
  obtain ⟨-, ⟨r, rfl⟩ | ⟨hen, rfl⟩⟩ := exec_next h
  · simp at ht
  · have hpin : (s.setPin w).watchPin.setPin w = (s.setPin w).watchPin := by rw [watchPin_eq]; rfl
    rw [exec_pinWr ht (by simpa using hen), hpin, watchPin_watchPin]

theorem exec_srWr_again (ht : t.fault = none) (h : exec (.srWr w) s = .next t) : exec (.srWr w) t = .next t := by
  obtain ⟨-, ⟨r, rfl⟩ | ⟨hen, rfl⟩⟩ := exec_next h
  · simp at ht
  · exact exec_srWr ht hen

theorem exec_brrWr_again (ht : t.fault = none) (h : exec (.brrWr w) s = .next t) : exec (.brrWr w) t = .next t := by
  obtain ⟨-, ⟨r, rfl⟩ | ⟨hen, hres, hue, rfl⟩⟩ := exec_next h
  · simp at ht
  · exact exec_brrWr ht hen hres hue

theorem exec_crWr_again (ht : t.fault = none) (h : exec (.crWr w) s = .next t) : exec (.crWr w) t = .next t := by
  obtain ⟨-, ⟨r, rfl⟩ | ⟨hen, hres, hbusy, rfl⟩⟩ := exec_next h
  · simp at ht
  · exact exec_crWr ht hen hres hbusy

/-- The byte of the first write is still in TDR (R92). -/
theorem exec_drWr_again (ht : t.fault = none) (h : exec (.drWr w) s = .next t) :
    exec (.drWr w) t = .next (t.setFault .dataWriteNotReady) := by
  obtain ⟨-, ⟨r, rfl⟩ | ⟨hen, hres, hue, hte, -, -, rfl⟩⟩ := exec_next h
  · simp at ht
  · exact exec_drWr_of_occupied ht hen hres hue hte (Option.some_ne_none _)

end RepeatedWrites

/-- Settles O35, write by write. -/
theorem repeatedWrites : Obligations.RepeatedWrites :=
  fun _ _ _ ht => ⟨exec_clkWr_again ht, exec_pinWr_again ht, exec_srWr_again ht, exec_brrWr_again ht,
    exec_crWr_again ht, exec_drWr_again ht⟩

/-! ### R41, R44: a read after a write -/

section ReadAfterWrite

variable {s t : State} {w : Word}

/-- Two states with the same registers that software writes and reads back, and the same FAULT (R44). -/
def SameRegisters (s t : State) : Prop :=
  s.clk = t.clk ∧ s.pin = t.pin ∧ s.brr = t.brr ∧ s.ue = t.ue ∧ s.te = t.te ∧ s.fault = t.fault

/-- The engine's turn moves bytes between the buffers and the log, and writes no register (R112). -/
theorem SameRegisters_engineStep (s : State) : SameRegisters s.engineStep s := by
  obtain ⟨-, -, -, b, -, h⟩ | ⟨-, f, -, h⟩ | h := engineStep_effect s <;> rw [h]
  · exact ⟨rfl, rfl, rfl, rfl, rfl, rfl⟩
  · exact ⟨rfl, rfl, rfl, rfl, rfl, rfl⟩
  · exact ⟨rfl, rfl, rfl, rfl, rfl, rfl⟩

/-- Any number of the engine's turns writes no register (R44). -/
theorem SameRegisters_iterate (n : Nat) (s : State) : SameRegisters (Nat.iterate State.engineStep n s) s := by
  induction n generalizing s with
  | zero => exact ⟨rfl, rfl, rfl, rfl, rfl, rfl⟩
  | succ n ih =>
    obtain ⟨hclk, hpin, hbrr, hue, hte, hf⟩ := ih s.engineStep
    obtain ⟨hclk', hpin', hbrr', hue', hte', hf'⟩ := SameRegisters_engineStep s
    exact ⟨hclk.trans hclk', hpin.trans hpin', hbrr.trans hbrr', hue.trans hue', hte.trans hte', hf.trans hf'⟩

theorem clkRd_after_clkWr (hf : s.fault = none) (n : Nat) :
    ∃ t u, exec (.clkWr w) s = .next t ∧ exec .clkRd (Nat.iterate State.engineStep n t) = .next u ∧ u.rdata = w := by
  obtain ⟨hclk, -, -, -, -, hfault⟩ := SameRegisters_iterate n (s.setClk w).watchPin
  exact ⟨_, _, exec_clkWr hf, exec_clkRd (by simpa [hfault] using hf), by simp [hclk]⟩

theorem pinRd_after_pinWr (hf : s.fault = none) (hen : s.gpioEn = true) (n : Nat) :
    ∃ t u, exec (.pinWr w) s = .next t ∧ exec .pinRd (Nat.iterate State.engineStep n t) = .next u ∧ u.rdata = w := by
  obtain ⟨hclk, hpin, -, -, -, hfault⟩ := SameRegisters_iterate n (s.setPin w).watchPin
  refine ⟨_, _, exec_pinWr hf hen, exec_pinRd (by simpa [hfault] using hf) ?_, by simp [hpin]⟩
  simpa [State.gpioEn, hclk] using hen

/-- With the reserved bits 0 the divisor field is the whole value (R56). -/
theorem brrReserved_of_lt (hw : w.toNat < 2 ^ 16) : brrReserved w = false := by
  have hzero : w.extractLsb' 16 16 = 0 := by
    apply BitVec.eq_of_toNat_eq
    simp only [BitVec.extractLsb'_toNat, Nat.shiftRight_eq_div_pow, Nat.div_eq_of_lt hw]
    rfl
  simp [brrReserved, hzero]

theorem brrField_setWidth_of_lt (hw : w.toNat < 2 ^ 16) : (brrField w).setWidth 32 = w := by
  apply BitVec.eq_of_toNat_eq
  simp only [brrField, BitVec.toNat_setWidth, BitVec.extractLsb'_toNat, Nat.shiftRight_zero]
  omega

theorem brrRd_after_brrWr (hf : s.fault = none) (hen : s.uartEn = true) (hue : s.ue = false) (hw : w.toNat < 2 ^ 16)
    (n : Nat) :
    ∃ t u, exec (.brrWr w) s = .next t ∧ exec .brrRd (Nat.iterate State.engineStep n t) = .next u ∧ u.rdata = w := by
  obtain ⟨hclk, -, hbrr, -, -, hfault⟩ := SameRegisters_iterate n (s.setBrr (brrField w))
  refine ⟨_, _, exec_brrWr hf hen (brrReserved_of_lt hw) hue, exec_brrRd (by simpa [hfault] using hf) ?_, ?_⟩
  · simpa [State.uartEn, hclk] using hen
  · simp [hbrr, brrField_setWidth_of_lt hw]

theorem bitIn_getLsbD (w : Word) (k : Nat) : bitIn (w.getLsbD k) k = w &&& bitMask k :=
  (BitVec.and_twoPow w k).symm

/-- With the reserved bits 0 the two enables are the whole value (R56, R96). -/
theorem crValue_crUe_crTe (hw : w &&& ~~~(ueMask ||| teMask) = 0) : crValue (crUe w) (crTe w) = w := by
  calc crValue (crUe w) (crTe w)
      = w &&& (ueMask ||| teMask) := by
        rw [crValue, crUe, crTe, bitIn_getLsbD, bitIn_getLsbD, ← BitVec.and_or_distrib_left]; rfl
    _ = w &&& ((ueMask ||| teMask) ||| ~~~(ueMask ||| teMask)) := by
        rw [BitVec.and_or_distrib_left (x := w) (y := ueMask ||| teMask), hw, BitVec.ofNat_eq_ofNat, BitVec.or_zero]
    _ = w := by rw [BitVec.or_not_self, BitVec.and_allOnes]

theorem crRd_after_crWr (hf : s.fault = none) (hen : s.uartEn = true)
    (hbusy : s.busy = true → crUe w = true ∧ crTe w = true) (hw : w &&& ~~~(ueMask ||| teMask) = 0) (n : Nat) :
    ∃ t u, exec (.crWr w) s = .next t ∧ exec .crRd (Nat.iterate State.engineStep n t) = .next u ∧ u.rdata = w := by
  obtain ⟨hclk, -, -, hue, hte, hfault⟩ := SameRegisters_iterate n (s.setCr (crUe w) (crTe w))
  have hres : crReserved w = false := by simp [crReserved, hw]
  refine ⟨_, _, exec_crWr hf hen hres hbusy, exec_crRd (by simpa [hfault] using hf) ?_, ?_⟩
  · simpa [State.uartEn, hclk] using hen
  · simp [hue, hte, crValue_crUe_crTe hw]

end ReadAfterWrite

/-- Settles O36, register by register. -/
theorem readReturnsLatestWrite : Obligations.ReadReturnsLatestWrite := by
  intro s w n hf
  refine ⟨clkRd_after_clkWr hf n, fun hen => pinRd_after_pinWr hf hen n,
    fun hen hue hw => brrRd_after_brrWr hf hen hue hw n, fun hen hbusy hw => crRd_after_crWr hf hen ?_ hw n⟩
  intro hb
  obtain hidle | hon := hbusy
  · simp [hidle] at hb
  · exact hon

/-! ### R30, R157: the bus master's step -/

section BusMaster

variable {s t : State} {op : BusOp} {c : Command}

theorem complete_of_next (op : BusOp) (t : State) :
    op.complete (.next t) = if t.fault = none then .next ((op.receive t).goto (t.pos + 1)) else .next t := by
  cases hf : t.fault <;> simp [BusOp.complete, hf]

/-- A transaction that records a reason is completed as it is (R157). -/
theorem complete_setFault (op : BusOp) (r : Reason) (t : State) :
    op.complete (.next (t.setFault r)) = .next (t.setFault r) := by
  simp [complete_of_next]

/-- On its turn the bus master completes the transaction at its position, the event used (R30, R47). -/
theorem step_busMaster (hf : s.fault = none) (he : s.nextEvent = .busMaster) (hop : s.prog[s.pos]? = some op)
    (hc : op.command s = some c) : step s = op.complete (transaction c s.tookEvent) := by
  rw [step, unlessFaulted_of_none hf, he, runEvent, busStep, State.tookEvent_prog, State.tookEvent_pos, hop]
  simp only [BusOp.run, command_tookEvent, hc]

theorem step_busMaster_ok {i : Instr} (hf : s.fault = none) (he : s.nextEvent = .busMaster)
    (hop : s.prog[s.pos]? = some op) (hc : op.command s = some c) (hi : decode c = .ok i)
    (hexec : exec i s.tookEvent = .next t) :
    step s = if t.fault = none then .next ((op.receive t).goto (t.pos + 1)) else .next t := by
  rw [step_busMaster hf he hop hc, transaction_of_ok hi, hexec, complete_of_next]

/-- The transaction that is placed is at position 0, and the event is the one that is placed with it (log entry 10). -/
theorem step_withFetchWord {nbits w : Nat} {i : Instr} (hf : s.fault = none) (hi : decodeTableWord nbits w = some i)
    (hexec : exec i (s.load [.issue (commandOfTable nbits w)]) = .next t) :
    step (s.withFetchWord nbits w) = if t.fault = none then .next (t.goto 1) else .next t := by
  have hdecode : decode (commandOfTable nbits w) = .ok i := by
    rw [decodeTableWord] at hi
    cases hd : decode (commandOfTable nbits w) with
    | error e => simp [hd, Except.toOption] at hi
    | ok j => simpa [hd, Except.toOption] using hi
  obtain ⟨-, -, ⟨-, hpos, -⟩, -⟩ := exec_keeps_master hexec
  rw [step_busMaster_ok (s := s.withFetchWord nbits w) hf rfl rfl rfl hdecode hexec, hpos]
  rfl

end BusMaster

/-- Settles O37: each case is the transaction's answer to the word, completed by `step_busMaster`. -/
theorem stepRunsDecodedInstruction : Obligations.StepRunsDecodedInstruction := by
  refine ⟨fun s t op c i hf he hop hc hi => step_busMaster_ok hf he hop hc hi, fun s op c hf he hop hc hd => ?_,
    fun s op c hf he hop hc hd => ?_, fun s op c hf he hop hc hd => ?_,
    fun s t nbits w i hf hi => step_withFetchWord hf hi⟩
  · rw [step_busMaster hf he hop hc, transaction_of_reservedEncoding hd, BusOp.complete]
  · rw [step_busMaster hf he hop hc, transaction_of_badAccessSize (by simpa using hf) hd]
    exact complete_setFault op _ _
  · rw [step_busMaster hf he hop hc, transaction_of_misaligned (by simpa using hf) hd]
    exact complete_setFault op _ _

end Sys2Proof.Proofs

/-! The encoding's family (spec/30_encoding.md): first what each class of command words decodes to and what the
decoder's results encode to, then the statements, each put together from them. -/

namespace Sys2Proof.Proofs

open Sys2Proof Sys2Proof.Machine Sys2Proof.Safety

/-! ### R50: the SIZE field and the value of a write -/

/-- Three of the four SIZE codes spell a size, and the fourth is reserved (R50, R51). -/
theorem eq_sizeCode_or_reserved (z : BitVec 2) : (∃ sz, z = sizeCode sz) ∨ z = 0b11 := by
  have hcodes : ∀ z : BitVec 2, z = sizeCode .byte ∨ z = sizeCode .half ∨ z = sizeCode .word ∨ z = 0b11 := by decide
  obtain h | h | h | h := hcodes z
  · exact .inl ⟨.byte, h⟩
  · exact .inl ⟨.half, h⟩
  · exact .inl ⟨.word, h⟩
  · exact .inr h

theorem sizeCode_injective {sz sz' : Size} (h : sizeCode sz = sizeCode sz') : sz = sz' := by
  simpa using congrArg sizeOfCode h

/-- A write of `n` bytes carries the low `8n` bits of WDATA (R50). -/
theorem getLsbD_transferValue (sz : Size) (v : Word) (k : Nat) :
    (transferValue sz v).getLsbD k = (decide (k < 8 * sizeBytes sz) && v.getLsbD k) := by
  cases sz with
  | byte | half =>
    simp only [transferValue, sizeBytes, BitVec.getLsbD_setWidth, BitVec.getLsbD_extractLsb', Nat.zero_add]
    grind
  | word =>
    obtain hk | hk := Nat.lt_or_ge k 32
    · simp [transferValue, sizeBytes, hk]
    · simp [transferValue, BitVec.getLsbD_of_ge v k hk]

theorem transferValue_transferValue (sz : Size) (v : Word) :
    transferValue sz (transferValue sz v) = transferValue sz v := by
  refine BitVec.eq_of_getLsbD_eq fun k _ => ?_
  simp only [getLsbD_transferValue, ← Bool.and_assoc, Bool.and_self]

/-! ### R51: what each class of command words decodes to -/

theorem decode_of_reserved (w : Bool) (a v : Word) : decode (commandWord 0b11 w a v) = .error .reservedEncoding := by
  rw [decode_commandWord]
  rfl

/-- SIZE and ADDR alone decide whether a command word is rejected, a fallback operation or an operation of one
register; W and WDATA are only passed on (R51, R59). -/
theorem decode_cases (z : BitVec 2) (a : Word) :
    (∃ e, ∀ w v, decode (commandWord z w a v) = .error e) ∨
    (∃ sz, z = sizeCode sz ∧ ¬ Touches a sz ∧ ∀ w v, decode (commandWord z w a v) = .ok (fallbackOp sz w a v)) ∨
    (z = sizeCode .word ∧ ∃ r, a = regAddr r ∧ ∀ w v, decode (commandWord z w a v) = .ok (registerOp r w v)) := by
  obtain ⟨sz, rfl⟩ | rfl := eq_sizeCode_or_reserved z
  · by_cases ht : Touches a sz
    · by_cases hsz : sz = .word
      · subst hsz
        by_cases ha : a.extractLsb' 0 2 = 0
        · obtain ⟨r, rfl⟩ := touches_aligned ha ht
          exact .inr (.inr ⟨rfl, r, rfl, decode_register r⟩)
        · exact .inl ⟨_, fun w v => (decode_of_touched ht w v).trans (decodeRegister_of_misaligned ha w v)⟩
      · exact .inl ⟨_, fun w v => (decode_of_touched ht w v).trans (decodeRegister_of_narrow hsz w a v)⟩
    · exact .inr (.inl ⟨sz, rfl, ht, decode_of_untouched ht⟩)
  · exact .inl ⟨_, fun w v => decode_of_reserved w a v⟩

/-- A register's read has no operand (R51 (4)). -/
theorem registerOp_read (r : Reg) (v v' : Word) : registerOp r false v = registerOp r false v' := by cases r <;> rfl

/-- WDATA takes no part in a read (R51 (4)). -/
theorem decode_read (z : BitVec 2) (a v v' : Word) :
    decode (commandWord z false a v) = decode (commandWord z false a v') := by
  obtain ⟨e, he⟩ | ⟨sz, -, -, hfallback⟩ | ⟨-, r, -, hreg⟩ := decode_cases z a
  · rw [he, he]
  · rw [hfallback, hfallback]
    rfl
  · rw [hreg, hreg, registerOp_read]

/-! ### R50, R58, R59: the canonical word of what the decoder answers -/

/-- WDATA of a canonical command word: the value a write carries, 0 in a read (R50). -/
def canonicalData (sz : Size) (write : Bool) (wdata : Word) : Word :=
  if write then transferValue sz wdata else 0

theorem encode_registerOp (r : Reg) (w : Bool) (v : Word) :
    encode (registerOp r w v) = commandWord (sizeCode .word) w (regAddr r) (canonicalData .word w v) := by
  cases r <;> cases w <;> rfl

theorem registerOp_wellFormed (r : Reg) (w : Bool) (v : Word) : (registerOp r w v).wellFormed = true := by
  cases r <;> cases w <;> rfl

theorem registerOp_isWrite (r : Reg) (w : Bool) (v : Word) : (registerOp r w v).isWrite = w := by
  cases r <;> cases w <;> rfl

theorem encode_fallbackOp (sz : Size) (w : Bool) (a v : Word) :
    encode (fallbackOp sz w a v) = commandWord (sizeCode sz) w a (canonicalData sz w v) := by
  cases w <;> rfl

/-! A fallback operation is a term a command word spells when its range reaches no register and its value fits its
size (R50, R58). -/

theorem wellFormed_unmappedRd {sz : Size} {a : Word} : (Instr.unmappedRd sz a).wellFormed = true ↔ ¬ Touches a sz := by
  simp [Instr.wellFormed, ← overlapsRegister_iff_touches]

theorem wellFormed_unmappedWr {sz : Size} {a v : Word} :
    (Instr.unmappedWr sz a v).wellFormed = true ↔ ¬ Touches a sz ∧ transferValue sz v = v := by
  simp [Instr.wellFormed, ← overlapsRegister_iff_touches]

theorem fallbackOp_wellFormed {sz : Size} {a : Word} (ht : ¬ Touches a sz) (w : Bool) (v : Word) :
    (fallbackOp sz w a v).wellFormed = true := by
  cases w with
  | false => exact wellFormed_unmappedRd.2 ht
  | true => exact wellFormed_unmappedWr.2 ⟨ht, transferValue_transferValue sz v⟩

theorem fallbackOp_isWrite (sz : Size) (w : Bool) (a v : Word) : (fallbackOp sz w a v).isWrite = w := by
  cases w <;> rfl

/-- What decodes is well formed, and is encoded by the fields it was read from, with the data made canonical (R50). -/
theorem encode_of_decode {c : Command} {i : Instr} (h : decode c = .ok i) :
    i.wellFormed = true ∧ i.isWrite = writeField c ∧ ∃ sz, sizeField c = sizeCode sz ∧
      encode i =
        commandWord (sizeField c) (writeField c) (addrField c) (canonicalData sz (writeField c) (dataField c)) := by
  rw [← commandWord_fields c] at h
  obtain ⟨e, he⟩ | ⟨sz, hsz, ht, hfallback⟩ | ⟨hsz, r, ha, hreg⟩ := decode_cases (sizeField c) (addrField c)
  · simp [he] at h
  · rw [hfallback, Except.ok.injEq] at h
    subst h
    exact ⟨fallbackOp_wellFormed ht _ _, fallbackOp_isWrite _ _ _ _, sz, hsz, by rw [encode_fallbackOp, hsz]⟩
  · rw [hreg, Except.ok.injEq] at h
    subst h
    exact ⟨registerOp_wellFormed _ _ _, registerOp_isWrite _ _ _, .word, hsz, by rw [encode_registerOp, hsz, ha]⟩

/-- Settles O39: the canonical word of a register operation is the word access at that register's address, and that of
a well-formed fallback operation touches no register and carries a value that fits its size. -/
theorem decodeOfEncode : Obligations.DecodeOfEncode := by
  intro i hwf
  cases i with
  | clkRd | pinRd | srRd | drRd | brrRd | crRd => exact decode_register _ false 0
  | clkWr v | pinWr v | srWr v | drWr v | brrWr v | crWr v => exact decode_register _ true v
  | unmappedRd sz a => exact decode_of_untouched (wellFormed_unmappedRd.1 hwf) false 0
  | unmappedWr sz a v =>
    obtain ⟨ht, hv⟩ := wellFormed_unmappedWr.1 hwf
    exact (decode_of_untouched ht true v).trans (congrArg Except.ok (congrArg (Instr.unmappedWr sz a) hv))

/-- Settles O16: the checks of R39 in their order, SIZE, then the range, then the size on a register, then alignment. -/
theorem commandWordClasses : Obligations.CommandWordClasses := by
  refine ⟨fun w a v => ⟨decode_of_reserved w a v, fun s => ?_⟩, fun sz a v ht => ⟨?_, ?_⟩, fun sz w a v ht hsz => ?_,
    fun w a v ht ha => ?_, fun w a v ht ha => ?_, decode_read⟩
  · exact transaction_of_reservedEncoding (decode_of_reserved w a v)
  · exact decode_of_untouched ht false v
  · exact decode_of_untouched ht true v
  · exact (decode_of_touched ht w v).trans (decodeRegister_of_narrow hsz w a v)
  · exact (decode_of_touched ht w v).trans (decodeRegister_of_misaligned ha w v)
  · obtain ⟨r, hr⟩ := touches_aligned ha ht
    exact ⟨r, hr, hr ▸ decode_register r w v⟩

/-- Settles O40: each field is read off the canonical word that `encode_of_decode` gives. -/
theorem encodeOfDecode : Obligations.EncodeOfDecode := by
  intro c i h
  obtain ⟨hwf, hwrite, sz, hsz, henc⟩ := encode_of_decode h
  refine ⟨hwf, hwrite, ?_, ?_, ?_, fun hw hword => ?_, fun sz' k hw hsz' => ?_, fun hr => ?_⟩
  · rw [henc, sizeField_commandWord]
  · rw [henc, writeField_commandWord]
  · rw [henc, addrField_commandWord]
  · obtain rfl : sz = .word := sizeCode_injective (hsz.symm.trans hword)
    rw [henc, canonicalData, if_pos hw]
    exact commandWord_fields c
  · obtain rfl : sz = sz' := sizeCode_injective (hsz.symm.trans hsz')
    rw [henc, dataField_commandWord, canonicalData, if_pos hw, getLsbD_transferValue]
  · rw [henc, dataField_commandWord, canonicalData, hr, if_neg Bool.false_ne_true]

/-- Settles O38: each word of the map is the word access at its register's address; the others are closed words. -/
theorem tableWordsDecode : Obligations.TableWordsDecode :=
  ⟨decode_register .clk false 0, decode_register .clk true 0x4005, decode_register .pin false 0,
    decode_register .pin true 0x444444B4, decode_register .sr false 0, decode_register .sr true 0xFFFFFFFF,
    decode_register .dr true 0x41, decode_register .dr false 0, decode_register .brr false 0,
    decode_register .brr true 0x341, decode_register .cr false 0, decode_register .cr true 0x2008,
    rfl, rfl, rfl, rfl, rfl⟩

end Sys2Proof.Proofs

/-! The clock enabler's family (spec/40_clock_enabler.md): first what CLK.WR, the gates behind it and a
read-modify-write of CLK do, then the statements, each put together from them. -/

namespace Sys2Proof.Proofs

open Sys2Proof Sys2Proof.Machine Sys2Proof.Safety

/-- Settles O1: CLK has no gate, and CLK.WR stores its value whatever watching the pin does to the frame. -/
theorem clkReadReturnsClk : Obligations.ClkReadReturnsClk := by
  refine ⟨decode_register .clk false, fun s hf => exec_clkRd hf, fun s w hf => ⟨_, exec_clkWr hf, ?_⟩, exec_clkRd rfl⟩
  rw [exec_clkRd (by simpa using hf), State.setRdata, watchPin_clk, State.setClk_clk]

/-! ### R38, R71: the access after the gate has been written -/

section Gates

variable {s : State} {i : Instr}

/-- A check answers a next state, and records no reason but its own (R39). -/
theorem check_answers {bad : Bool} {r x : Reason} {k : Result} (hr : r ≠ x)
    (hk : ∃ u, k = .next u ∧ u.fault ≠ some x) : ∃ u, check bad r s k = .next u ∧ u.fault ≠ some x := by
  cases bad with
  | false => rwa [check_of_false rfl]
  | true => exact ⟨_, check_of_true rfl r k, by simpa using hr⟩

/-- A gated transaction answers a next state, and records GatedAccess exactly where its gate is shut, if nothing behind
the gate records it (R38). -/
theorem gated_answers {enabled : Bool} {k : Result} (hf : s.fault = none)
    (hk : ∃ u, k = .next u ∧ u.fault ≠ some .gatedAccess) :
    ∃ u, gated enabled s k = .next u ∧ (u.fault = some .gatedAccess ↔ enabled = false) := by
  cases enabled with
  | false => exact ⟨_, gated_of_off hf rfl k, by simp⟩
  | true =>
    obtain ⟨u, hu, hne⟩ := hk
    exact ⟨u, (gated_of_on hf rfl k).trans hu, by simp [hne]⟩

/-- An access of PIN is GatedAccess exactly when the GPIO port is not clocked (R38). -/
theorem exec_pin_gate (hf : s.fault = none) (hi : i.register = some .pin) :
    ∃ u, exec i s = .next u ∧ (u.fault = some .gatedAccess ↔ s.gpioEn = false) := by
  cases i with
  | pinRd | pinWr _ => exact gated_answers hf ⟨_, rfl, by simp [hf]⟩
  | clkRd | clkWr _ | srRd | srWr _ | drWr _ | drRd | brrRd | brrWr _ | crRd | crWr _ | unmappedRd _ _
  | unmappedWr _ _ _ => simp [Instr.register] at hi

/-- An access of a serial register is GatedAccess exactly when the serial peripheral is not clocked: the checks behind
the gate have reasons of their own (R38, R39). -/
theorem exec_serial_gate {r : Reg} (hf : s.fault = none) (hi : i.register = some r) (hclk : r ≠ .clk)
    (hpin : r ≠ .pin) : ∃ u, exec i s = .next u ∧ (u.fault = some .gatedAccess ↔ s.uartEn = false) := by
  cases i with
  | clkRd | clkWr _ => exact absurd (Option.some.inj hi).symm hclk
  | pinRd | pinWr _ => exact absurd (Option.some.inj hi).symm hpin
  | srRd | srWr _ | drRd | brrRd | crRd => exact gated_answers hf ⟨_, rfl, by simp [hf]⟩
  | brrWr _ | crWr _ =>
    exact gated_answers hf <| check_answers (by decide) <| check_answers (by decide) ⟨_, rfl, by simp [hf]⟩
  | drWr _ =>
    exact gated_answers hf <| check_answers (by decide) <| check_answers (by decide) <|
      check_answers (by decide) <| check_answers (by decide) ⟨_, rfl, by simp [hf]⟩
  | unmappedRd _ _ | unmappedWr _ _ _ => simp [Instr.register] at hi

theorem exec_srRd (hf : s.fault = none) (hen : s.uartEn = true) :
    exec .srRd s = .next (s.setRdata (srValue (Config.srOther s.draws) s.txe)).nextDraw :=
  gated_of_on hf hen _

end Gates

/-! ### R71, R86: CLK.WR, and the mark of the frame on the line -/

section Mark

variable {s t : State}

/-! The gates behind CLK.WR are the bits it wrote (R11, R71). -/

@[simp] theorem setClk_gpioEn (w : Word) : (s.setClk w).gpioEn = w.getLsbD Config.gpioEnBit := rfl
@[simp] theorem setClk_uartEn (w : Word) : (s.setClk w).uartEn = w.getLsbD Config.uartEnBit := rfl
@[simp] theorem watchPin_uartEn : s.watchPin.uartEn = s.uartEn := by rw [watchPin_eq, State.setTsr_keeps_uartEn]

/-- Without the serial clock the engine is frozen, and the pin is not visible (R85, R110, R111). -/
theorem txLoad_of_uart_off (h : s.uartEn = false) : s.txLoad = none := by simp [State.txLoad, State.engineOn, h]

theorem txDone_of_uart_off (h : s.uartEn = false) : s.txDone = none := by simp [State.txDone, State.engineOn, h]

theorem pinVisible_of_uart_off (h : s.uartEn = false) : s.pinVisible = false := by simp [State.pinVisible, h]

theorem watchPin_tsr (s : State) : s.watchPin.tsr = s.tsr ∨ s.watchPin.tsr = s.tsr.map Frame.spoil := by
  rw [watchPin_eq, State.setTsr_tsr]
  split
  · exact .inl rfl
  · exact .inr rfl

/-- Where the pin is not visible, the frame on the line has no mark once the pin has been watched (R86). -/
theorem watchPin_ok_of_hidden {f : Frame} (hv : s.pinVisible = false) (hf : s.watchPin.tsr = some f) : f.ok = false := by
  rw [watchPin_eq, hv, if_neg Bool.false_ne_true, State.setTsr_tsr] at hf
  obtain ⟨g, -, rfl⟩ := Option.map_eq_some_iff.1 hf
  exact spoil_ok g

/-- Where the mark is right, watching the pin changes nothing (R86). -/
theorem watchPin_of_markMeansVisible (hmark : MarkMeansVisible s) : s.watchPin = s := by
  cases hv : s.pinVisible with
  | true => rw [State.watchPin, if_pos hv]
  | false =>
    have hspoil : s.tsr.map Frame.spoil = s.tsr := by
      cases htsr : s.tsr with
      | none => rfl
      | some f =>
        have hok : f.ok = false := by simpa [hv] using hmark f htsr
        simp [Frame.spoil, ← hok]
    rw [watchPin_eq, hspoil, ite_self, State.setTsr]

/-- An instruction leaves TSR as it is, or clears the mark of the frame in it (R71, R81, R86). -/
theorem exec_tsr {i : Instr} (h : exec i s = .next t) : t.tsr = s.tsr ∨ t.tsr = s.tsr.map Frame.spoil := by
  obtain ⟨r, rfl⟩ | hsame | ⟨w, -, rfl⟩ | ⟨w, -, rfl⟩ | ⟨w, -, -, -, -, -, rfl⟩ | ⟨w, -, -, rfl⟩ | ⟨w, -, -, rfl⟩ :=
    exec_blockEffect h
  · exact .inl rfl
  · obtain ⟨-, -, -, -, -, -, htsr, -⟩ := hsame
    exact .inl htsr
  · exact watchPin_tsr (s.setClk w)
  · exact watchPin_tsr (s.setPin w)
  · exact .inl rfl
  · exact .inl rfl
  · exact .inl rfl

/-- Everything a step can do to TSR (R18, R86, R110, R111, R171): leave it, clear the mark of the frame in it, empty it,
or load a frame into it when it is empty. -/
theorem step_tsr (h : step s = .next t) :
    t.tsr = s.tsr ∨ t.tsr = s.tsr.map Frame.spoil ∨ t.tsr = none ∨
    (s.tsr = none ∧ ∃ b, s.tdr = some b ∧ t.tsr = some ⟨b, s.brr, s.pinVisible⟩) := by
  obtain ⟨-, ⟨-, rfl⟩ | ⟨-, rfl⟩ | ⟨-, ⟨hsame, -⟩ | ⟨r, rfl⟩ | ⟨op, c, i, x, -, -, -, hexec, -, rfl⟩⟩⟩ := step_effect h
  · exact .inr (.inr (.inl rfl))
  · obtain ⟨-, hempty, -, b, htdr, heq⟩ | ⟨-, f, -, heq⟩ | heq := engineStep_effect s.tookEvent <;> rw [heq]
    · exact .inr (.inr (.inr ⟨by simpa using hempty, b, by simpa using htdr, by simp⟩))
    · exact .inr (.inr (.inl rfl))
    · exact .inl (State.tookEvent_tsr s)
  · obtain ⟨-, -, -, -, -, -, htsr, -⟩ := hsame
    exact .inl htsr
  · exact .inl (State.tookEvent_tsr s)
  · obtain ⟨-, -, -, -, -, -, htsr, -⟩ := SameBlock_receive_goto op x (x.pos + 1)
    rw [htsr, ← State.tookEvent_tsr s]
    exact (exec_tsr hexec).imp_right .inl

/-- A mark once cleared is not set again (R86). -/
theorem step_keeps_cleared_mark {f g : Frame} (hs : s.tsr = some f) (hok : f.ok = false) (h : step s = .next t)
    (ht : t.tsr = some g) : g.ok = false := by
  obtain hkept | hcleared | hnone | ⟨hempty, -⟩ := step_tsr h
  · obtain rfl : g = f := Option.some.inj (ht.symm.trans (hkept.trans hs))
    exact hok
  · obtain rfl : g = f.spoil := by simpa [hs, ht] using hcleared
    exact spoil_ok f
  · simp [hnone] at ht
  · simp [hempty] at hs

end Mark

/-- Settles O2: the state after CLK.WR is `(s.setClk w).watchPin`, whose gates are the bits written; the accesses behind
it answer by their gates, and its frame by `watchPin_eq`. -/
theorem clkWriteStoresAndMarksFrame : Obligations.ClkWriteStoresAndMarksFrame := by
  refine ⟨decode_register .clk true, fun s w hf => ?_, fun s t f g => step_keeps_cleared_mark, fun s hf hmark => ?_⟩
  · have hft : (s.setClk w).watchPin.fault = none := by simpa using hf
    refine ⟨_, exec_clkWr hf, ?_, ?_, ?_, ?_, fun hen => ⟨?_, _, exec_srRd hft (by simpa using hen), ?_, ?_⟩,
      fun i hi => ?_, fun i r hi hclk hpin => ?_, fun hoff => ⟨?_, ?_, fun f => ?_⟩⟩
    · rw [watchPin_eq]
      rfl
    · rw [watchPin_pinVisible, watchPin_eq]
      rfl
    · split
      next hen => rw [exec_pinRd hft (by simpa using hen), State.setRdata, watchPin_pin, State.setClk_pin]
      next hen => exact gated_of_off hft (by simpa using hen) _
    · split
      next hen => rw [exec_brrRd hft (by simpa using hen), State.setRdata, watchPin_brr, State.setClk_brr]
      next hen => exact gated_of_off hft (by simpa using hen) _
    · rw [exec_crRd hft (by simpa using hen), State.setRdata, watchPin_ue, watchPin_te, State.setClk_ue, State.setClk_te]
    · simpa using hf
    · simp [State.txe]
    · simpa using exec_pin_gate hft hi
    · simpa using exec_serial_gate hft hi hclk hpin
    · exact txLoad_of_uart_off (by simpa using hoff)
    · exact txDone_of_uart_off (by simpa using hoff)
    · exact watchPin_ok_of_hidden (pinVisible_of_uart_off (by simpa using hoff))
  · rw [exec_clkWr hf, State.setClk, watchPin_of_markMeansVisible hmark]

/-! ### R72: a read-modify-write of CLK, on the bus master's own turns -/

section ReadModifyWrite

variable {s u : State}

/-- The bus master's turn at a read that its checks let pass: the result goes to the temporary (R62). -/
theorem busStep_rd {tmp : Temp} {r : Reg} (hop : s.prog[s.pos]? = some (.rd tmp r))
    (hexec : exec (registerOp r false 0) s = .next u) (hu : u.fault = none) :
    busStep s = .next ((u.setTemp tmp u.rdata).goto (u.pos + 1)) := by
  simp only [busStep, hop, BusOp.run, BusOp.command, transaction_readCommand, hexec, complete_of_next, hu, if_pos,
    BusOp.receive]

/-- The bus master's turn at a write that its checks let pass (R62). -/
theorem busStep_wr {r : Reg} {v : Source} (hop : s.prog[s.pos]? = some (.wr r v))
    (hexec : exec (registerOp r true (v.value s)) s = .next u) (hu : u.fault = none) :
    busStep s = .next (u.goto (u.pos + 1)) := by
  simp only [busStep, hop, BusOp.run, BusOp.command, transaction_writeCommand, hexec, complete_of_next, hu, if_pos,
    BusOp.receive]

/-- The schedule in which the bus master alone moves, one turn further. -/
theorem runUnder_busMaster_succ (k : Nat) (hf : s.fault = none)
    (h : busStep { s with events := (List.range k).map fun _ => .busMaster } = .next u) :
    runUnder (fun _ => .busMaster) (k + 1) s = runUnder (fun _ => .busMaster) k u := by
  rw [runUnder_succ _ _ hf, runEvent, h]

/-- A read of CLK takes one turn and leaves CLK's value in t0 (R70). -/
theorem run_clkRd (k : Nat) (hf : s.fault = none) (hop : s.prog[s.pos]? = some (.rd .t0 .clk)) :
    ∃ t, runUnder (fun _ => .busMaster) (k + 1) s = runUnder (fun _ => .busMaster) k t ∧ t.fault = none ∧
      t.prog = s.prog ∧ t.pos = s.pos + 1 ∧ t.clk = s.clk ∧ t.t0 = s.clk :=
  ⟨_, runUnder_busMaster_succ k hf (busStep_rd hop (exec_clkRd hf) hf), hf, rfl, rfl, rfl, rfl⟩

/-- A write of CLK takes one turn and leaves the value it writes in CLK (R71). -/
theorem run_clkWr (k : Nat) {m : Word} (hf : s.fault = none) (hop : s.prog[s.pos]? = some (.wr .clk (.set .t0 m))) :
    ∃ t, runUnder (fun _ => .busMaster) (k + 1) s = runUnder (fun _ => .busMaster) k t ∧ t.fault = none ∧
      t.prog = s.prog ∧ t.pos = s.pos + 1 ∧ t.clk = s.t0 ||| m := by
  refine ⟨_, runUnder_busMaster_succ k hf (busStep_wr hop (exec_clkWr hf) (by simpa using hf)), by simpa using hf, ?_⟩
  simp [watchPin_eq, Source.value, State.temp]

/-- A read-modify-write of CLK by `|` that is next in the program: two turns, after which the bits of the mask are set,
the rest of the program is to come, and nothing has been recorded in FAULT (R70 to R72). -/
theorem run_readModifyWrite_clk (k : Nat) {m : Word} {rest : List BusOp} (hf : s.fault = none)
    (hprog : s.prog.drop s.pos = .rd .t0 .clk :: .wr .clk (.set .t0 m) :: rest) :
    ∃ t, runUnder (fun _ => .busMaster) (k + 2) s = runUnder (fun _ => .busMaster) k t ∧ t.fault = none ∧
      t.prog.drop t.pos = rest ∧ t.pos = s.pos + 2 ∧ t.clk = s.clk ||| m := by
  have hread : s.prog[s.pos]? = some (.rd .t0 .clk) := by
    rw [← Nat.add_zero s.pos, ← List.getElem?_drop, hprog]; rfl
  have hwrite : s.prog[s.pos + 1]? = some (.wr .clk (.set .t0 m)) := by
    rw [← List.getElem?_drop, hprog]; rfl
  have hrest : s.prog.drop (s.pos + 2) = rest := by
    rw [← List.drop_drop, hprog]; rfl
  obtain ⟨t, hrun, hft, hprogt, hpost, -, ht0⟩ := run_clkRd (k + 1) hf hread
  obtain ⟨u, hrun', hfu, hprogu, hposu, hclk⟩ := run_clkWr k hft (by rw [hprogt, hpost]; exact hwrite)
  have hpos : u.pos = s.pos + 2 := by rw [hposu, hpost]
  exact ⟨u, hrun.trans hrun', hfu, by rw [hprogu, hprogt, hpos]; exact hrest, hpos, by rw [hclk, ht0]⟩

/-- The named bits of a word set, one after the other (R74). -/
def setBits (c : Word) (bits : List Nat) : Word := bits.foldl (fun c k => c ||| bitMask k) c

/-- The order in which bits are set does not matter (R74). -/
theorem setBits_perm {bits bits' : List Nat} (h : bits.Perm bits') (c : Word) : setBits c bits = setBits c bits' :=
  h.foldl_eq' (fun j _ k _ c => by simp only [BitVec.or_assoc, BitVec.or_comm (bitMask j)]) c

/-- The three named bits set one after the other are the bits of CLK_MASK set at once (R57, R74). -/
theorem setBits_clk (c : Word) : setBits c [Config.gpioEnBit, Config.uartEnBit, Config.auxEnBit] = c ||| clkMask := by
  simp only [setBits, List.foldl_cons, List.foldl_nil, clkMask, BitVec.or_assoc]

/-- The stepwise variant that is next in the program sets its bits one after the other, in two turns each (R74). -/
theorem run_clockEnableStepwise (bits : List Nat) (hf : s.fault = none)
    (hprog : s.prog.drop s.pos = clockEnableStepwise bits) :
    ∃ t, runUnder (fun _ => .busMaster) (2 * bits.length) s = .next t ∧ t.fault = none ∧ t.clk = setBits s.clk bits := by
  induction bits generalizing s with
  | nil => exact ⟨_, runUnder_zero _ s, hf, rfl⟩
  | cons b bits ih =>
    obtain ⟨t, hrun, hft, hrest, -, hclk⟩ := run_readModifyWrite_clk (2 * bits.length) hf hprog
    obtain ⟨u, hrun', hfu, hclk'⟩ := ih hft hrest
    exact ⟨u, hrun.trans hrun', hfu, by rw [hclk', hclk]; rfl⟩

/-- CLOCK_ENABLE, loaded and run to its end (R72). -/
theorem run_clockEnable (hf : s.fault = none) :
    ∃ t, runUnder (fun _ => .busMaster) 2 (s.load clockEnableOps) = .next t ∧ t.fault = none ∧ t.pos = 2 ∧
      t.clk = s.clk ||| clkMask := by
  obtain ⟨t, hrun, hft, -, hpos, hclk⟩ := run_readModifyWrite_clk 0 (s := s.load clockEnableOps) hf rfl
  exact ⟨_, hrun.trans (runUnder_zero _ t), hft, hpos, hclk⟩

end ReadModifyWrite

theorem getLsbD_bitMask {k : Nat} (hk : k < 32) (j : Nat) : (bitMask k).getLsbD j = decide (k = j) := by
  rw [bitMask, ← BitVec.twoPow_eq, BitVec.getLsbD_twoPow]
  simp [hk]

/-- CLK_MASK has the three named bits and no other (R57 (a)). -/
theorem getLsbD_clkMask (k : Nat) :
    clkMask.getLsbD k = decide (k = Config.gpioEnBit ∨ k = Config.uartEnBit ∨ k = Config.auxEnBit) := by
  rw [clkMask, BitVec.getLsbD_or, BitVec.getLsbD_or, getLsbD_bitMask (by decide), getLsbD_bitMask (by decide),
    getLsbD_bitMask (by decide)]
  simp only [Bool.decide_or, Bool.or_assoc, eq_comm]

/-- Settles O45: the end state is `run_clockEnable`'s, and a bit of `c ||| clkMask` is set where CLK_MASK has it. -/
theorem clockEnableSetsThreeBits : Obligations.ClockEnableSetsThreeBits := by
  intro s hf
  obtain ⟨t, hrun, hft, hpos, hclk⟩ := run_clockEnable hf
  refine ⟨t, hrun, hft, hpos, hclk, fun k _ => ?_⟩
  rw [hclk, BitVec.getLsbD_or, getLsbD_clkMask]
  split <;> simp [*]

/-- Settles O46: in the order given the bits are set one after the other, which is the same as all at once. -/
theorem clockEnableStepwiseAgrees : Obligations.ClockEnableStepwiseAgrees := by
  intro s order hf hperm
  obtain ⟨t, hrun, hft, hclk⟩ := run_clockEnableStepwise (s := s.load (clockEnableStepwise order)) order hf rfl
  obtain ⟨u, hrun', -, -, hclk'⟩ := run_clockEnable hf
  have hmask : t.clk = s.clk ||| clkMask := by rw [hclk, setBits_perm hperm, setBits_clk, State.load_clk]
  rw [hperm.length_eq] at hrun
  exact ⟨t, u, hrun, hrun', hft, hmask, hmask.trans hclk'.symm⟩

end Sys2Proof.Proofs

/-! The pin configurator's family (spec/41_pin_configurator.md): first what PIN.WR and every step leave of the mark
that R86 gives the frame on the line, then the single accesses and PIN_CONFIG on the bus master's own turns. -/

namespace Sys2Proof.Proofs

open Sys2Proof Sys2Proof.Machine Sys2Proof.Safety

/-! ### R85, R86: a frame marked ok is on a visible pin -/

section MarkInvariant

variable {s t : State}

/-- The pin's visibility is read from CLK and PIN alone (R85). -/
theorem pinVisible_congr (hclk : t.clk = s.clk) (hpin : t.pin = s.pin) : t.pinVisible = s.pinVisible := by
  simp only [State.pinVisible, State.txg, State.gpioEn, State.uartEn, State.auxEn, hclk, hpin]

/-- The invariant of R86 speaks of the block only. -/
theorem MarkMeansVisible_of_sameBlock (hsame : SameBlock t s) (hinv : MarkMeansVisible s) : MarkMeansVisible t := by
  obtain ⟨hclk, hpin, -, -, -, -, htsr, -⟩ := hsame
  simpa only [MarkMeansVisible, pinVisible_congr hclk hpin, htsr] using hinv

/-- Once the pin has been watched the mark is right, whatever it was before (R86). -/
theorem watchPin_markMeansVisible (s : State) : MarkMeansVisible s.watchPin := by
  intro f htsr hok
  rw [watchPin_pinVisible]
  cases hv : s.pinVisible with
  | true => rfl
  | false => exact absurd (hok.symm.trans (watchPin_ok_of_hidden hv htsr)) (by decide)

/-- The two writes that can hide the pin watch it, and no other instruction touches CLK, PIN or TSR (R71, R81, R86). -/
theorem exec_keeps_markMeansVisible {i : Instr} (hinv : MarkMeansVisible s) (h : exec i s = .next t) :
    MarkMeansVisible t := by
  obtain ⟨r, rfl⟩ | hsame | ⟨w, -, rfl⟩ | ⟨w, -, rfl⟩ | ⟨w, -, -, -, -, -, rfl⟩ | ⟨w, -, -, rfl⟩ | ⟨w, -, -, rfl⟩ :=
    exec_blockEffect h
  · exact hinv
  · exact MarkMeansVisible_of_sameBlock hsame hinv
  · exact watchPin_markMeansVisible (s.setClk w)
  · exact watchPin_markMeansVisible (s.setPin w)
  · exact hinv
  · exact hinv
  · exact hinv

/-- TX_LOAD gives its frame the mark `pin_visible()`, TX_DONE leaves no frame, and neither writes CLK or PIN (R86). -/
theorem engineStep_keeps_markMeansVisible (hinv : MarkMeansVisible s) : MarkMeansVisible s.engineStep := by
  obtain ⟨-, -, -, b, -, heq⟩ | ⟨-, f, -, heq⟩ | heq := engineStep_effect s <;> rw [heq]
  · intro f hf hok
    obtain rfl : ⟨b, s.brr, s.pinVisible⟩ = f := Option.some.inj hf
    exact hok
  · exact MarkMeansVisible_of_empty rfl
  · exact hinv

/-- Every step of any agent keeps the invariant of R86. -/
theorem step_keeps_markMeansVisible (hinv : MarkMeansVisible s) (h : step s = .next t) : MarkMeansVisible t := by
  have htook : MarkMeansVisible s.tookEvent := MarkMeansVisible_of_sameBlock (SameBlock_tookEvent s) hinv
  obtain ⟨-, ⟨-, rfl⟩ | ⟨-, rfl⟩ | ⟨-, ⟨hsame, -⟩ | ⟨r, rfl⟩ | ⟨op, c, i, x, -, -, -, hexec, -, rfl⟩⟩⟩ := step_effect h
  · exact MarkMeansVisible_of_empty rfl
  · exact engineStep_keeps_markMeansVisible htook
  · exact MarkMeansVisible_of_sameBlock hsame hinv
  · exact htook
  · exact MarkMeansVisible_of_sameBlock (SameBlock_receive_goto op x _) (exec_keeps_markMeansVisible htook hexec)

end MarkInvariant

/-- Settles O27, agent by agent. -/
theorem markMeansVisibleKept : Obligations.MarkMeansVisibleKept := fun _ _ => step_keeps_markMeansVisible

/-! ### R81, R86: when the mark is given and when it falls -/

section MarkFalls

variable {s t : State} {f g : Frame}

/-- Where the pin is not visible, watching it clears the mark of whatever frame is on the line (R86). -/
theorem watchPin_tsr_of_hidden (hv : s.pinVisible = false) : s.watchPin.tsr = s.tsr.map Frame.spoil := by
  rw [watchPin_eq, hv, if_neg Bool.false_ne_true, State.setTsr_tsr]

/-- A frame put on an empty line has the mark `pin_visible()` (R86, R110). -/
theorem step_marks_loaded_frame (hs : s.tsr = none) (h : step s = .next t) (ht : t.tsr = some g) :
    g.ok = s.pinVisible := by
  obtain hkept | hcleared | hnone | ⟨-, b, -, hload⟩ := step_tsr h
  · simp [hkept, hs] at ht
  · simp [hcleared, hs] at ht
  · simp [hnone] at ht
  · obtain rfl : g = ⟨b, s.brr, s.pinVisible⟩ := Option.some.inj (ht.symm.trans hload)
    rfl

/-- A frame that stays on the line is the same frame, or the same with its mark cleared (R18, R86). -/
theorem step_keeps_or_spoils_frame (hs : s.tsr = some f) (h : step s = .next t) (ht : t.tsr = some g) :
    g = f ∨ g = f.spoil := by
  obtain hkept | hcleared | hnone | ⟨hempty, -⟩ := step_tsr h
  · exact .inl (Option.some.inj (ht.symm.trans (hkept.trans hs)))
  · exact .inr (by simpa [hs, ht] using hcleared)
  · simp [hnone] at ht
  · simp [hempty] at hs

/-- A completed write of CLK or PIN ends with the pin being watched (R71, R81, R86). -/
theorem exec_watches_pin {i : Instr} (hi : ∃ w, i = .clkWr w ∨ i = .pinWr w) (h : exec i s = .next t)
    (hft : t.fault = none) : ∃ u : State, u.tsr = s.tsr ∧ t = u.watchPin := by
  obtain ⟨-, ⟨r, rfl⟩ | heff⟩ := exec_next h
  · simp at hft
  · obtain ⟨w, rfl | rfl⟩ := hi
    · exact ⟨s.setClk w, rfl, heff⟩
    · exact ⟨s.setPin w, rfl, heff.2⟩

end MarkFalls

/-- Settles O29: a step's effect on the frame by `step_tsr`, a write's by `exec_watches_pin`, TX_DONE's by its rule. -/
theorem frameMarkOnlyFalls : Obligations.FrameMarkOnlyFalls := by
  refine ⟨fun s t g => step_marks_loaded_frame, fun s t f g hs h ht => ?_, fun i s t f hi hs h hft hv => ?_,
    fun s t f hs h => ?_⟩
  · obtain rfl | rfl := step_keeps_or_spoils_frame hs h ht
    · exact ⟨rfl, rfl, id⟩
    · exact ⟨rfl, rfl, fun hok => absurd hok Bool.false_ne_true⟩
  · obtain ⟨u, hu, rfl⟩ := exec_watches_pin hi h hft
    rw [watchPin_tsr_of_hidden (by simpa using hv), hu, hs]
    rfl
  · obtain ⟨-, g, hg, rfl⟩ := txDone_some.1 h
    obtain rfl : f = g := Option.some.inj (hs.symm.trans hg)
    simp

/-- A group other than 0b1011 hides the pin (R85). -/
theorem pinVisible_of_other_group {s : State} (hg : pinGroup s.pin Config.txGroup ≠ Config.afPp) :
    s.pinVisible = false := by
  simp [State.pinVisible, State.txg, hg]

/-- Settles O4: the state after PIN.WR is `(s.setPin w).watchPin`, whose frame is given by `watchPin_eq`. -/
theorem pinWriteStoresAndMarksFrame : Obligations.PinWriteStoresAndMarksFrame := by
  refine ⟨decode_register .pin true, fun s w hf hoff => gated_of_off hf hoff _,
    fun s w hf hen => ⟨_, exec_pinWr hf hen, ?_, ?_, fun hg => ?_⟩⟩
  · rw [watchPin_eq]
    rfl
  · rw [watchPin_pinVisible, watchPin_eq]
    rfl
  · exact watchPin_tsr_of_hidden (pinVisible_of_other_group hg)

/-- Settles O3: one case for each position of the gate. -/
theorem pinReadReturnsPin : Obligations.PinReadReturnsPin := by
  refine ⟨decode_register .pin false, fun s hf => ?_, exec_pinRd rfl (by decide)⟩
  split
  next hen => exact exec_pinRd hf hen
  next hoff => exact gated_of_off hf (Bool.eq_false_iff.2 hoff) _

/-- Settles O54: the four conjuncts of `pin_visible()`, and the two branches of what the pin shows. -/
theorem pinShowsLineWhenVisible : Obligations.PinShowsLineWhenVisible := by
  refine ⟨fun s => ?_, fun s hv => if_pos hv, fun s hv => if_neg (by simp [hv])⟩
  simp only [State.pinVisible, Bool.and_eq_true, beq_iff_eq, and_assoc]
  rfl

/-! ### R57, R83: the groups of a PIN value under PIN_CONFIG's masks -/

/-- The PIN value that PIN_CONFIG makes of another: the transmit group cleared, then set (R82, R83). -/
def withTxGroupSet (v : Word) : Word := (v &&& ~~~grpMask) ||| grpAfPp

theorem pinGroup_and (v w : Word) (g : Nat) : pinGroup (v &&& w) g = pinGroup v g &&& pinGroup w g :=
  BitVec.extractLsb'_and

theorem pinGroup_or (v w : Word) (g : Nat) : pinGroup (v ||| w) g = pinGroup v g ||| pinGroup w g :=
  BitVec.extractLsb'_or

/-- `~GRP_MASK` is 0 in the transmit group and 1 in every bit of the seven others (R57 (b)). -/
theorem pinGroup_not_grpMask :
    ∀ g < 8, pinGroup (~~~grpMask) g = if g = Config.txGroup then 0 else BitVec.allOnes 4 := by
  decide

/-- GRP_AF_PP is 0b1011 in the transmit group and 0 in the seven others (R57 (b)). -/
theorem pinGroup_grpAfPp : ∀ g < 8, pinGroup grpAfPp g = if g = Config.txGroup then Config.afPp else 0 := by
  decide

/-- Clearing the transmit group leaves the seven others (R83). -/
theorem pinGroup_cleared (v : Word) {g : Nat} (hg : g < 8) :
    pinGroup (v &&& ~~~grpMask) g = if g = Config.txGroup then 0 else pinGroup v g := by
  rw [pinGroup_and, pinGroup_not_grpMask g hg]
  split
  · exact BitVec.and_zero
  · exact BitVec.and_allOnes

theorem pinGroup_withTxGroupSet (v : Word) {g : Nat} (hg : g < 8) :
    pinGroup (withTxGroupSet v) g = if g = Config.txGroup then Config.afPp else pinGroup v g := by
  rw [withTxGroupSet, pinGroup_or, pinGroup_cleared v hg, pinGroup_grpAfPp g hg]
  split
  · exact BitVec.zero_or
  · exact BitVec.or_zero

/-- What is cleared and set once is the same when cleared and set again (R83). -/
theorem withTxGroupSet_withTxGroupSet (v : Word) : withTxGroupSet (withTxGroupSet v) = withTxGroupSet v := by
  have hinside : grpAfPp &&& ~~~grpMask = 0 := by decide
  rw [withTxGroupSet, withTxGroupSet, BitVec.and_or_distrib_right, BitVec.and_assoc, BitVec.and_self, hinside,
    BitVec.ofNat_eq_ofNat, BitVec.or_zero]

/-! ### R82: a read-modify-write of PIN, on the bus master's own turns -/

section PinConfig

variable {s : State}

@[simp] theorem temp_setTemp (t : Temp) (v : Word) (s : State) : (s.setTemp t v).temp t = v := by cases t <;> rfl

@[simp] theorem temp_goto (t : Temp) (p : Nat) (s : State) : (s.goto p).temp t = s.temp t := by cases t <;> rfl

/-- A read of PIN takes one turn and leaves PIN's value in its temporary (R80). -/
theorem run_pinRd (k : Nat) {tmp : Temp} (hf : s.fault = none) (hen : s.gpioEn = true)
    (hop : s.prog[s.pos]? = some (.rd tmp .pin)) :
    ∃ t, runUnder (fun _ => .busMaster) (k + 1) s = runUnder (fun _ => .busMaster) k t ∧ t.fault = none ∧
      t.gpioEn = true ∧ t.prog = s.prog ∧ t.pos = s.pos + 1 ∧ t.temp tmp = s.pin := by
  refine ⟨_, runUnder_busMaster_succ k hf (busStep_rd hop (exec_pinRd hf hen) hf), ?_⟩
  simpa using ⟨hf, hen⟩

/-- What a driver operation writes does not depend on the schedule (R63). -/
theorem value_with_events (v : Source) (s : State) (es : List Event) :
    v.value { s with events := es } = v.value s := by
  cases v with
  | lit w => rfl
  | clear t m | set t m => cases t <;> rfl

/-- A write of PIN takes one turn and leaves the value it writes in PIN (R81). -/
theorem run_pinWr (k : Nat) {v : Source} (hf : s.fault = none) (hen : s.gpioEn = true)
    (hop : s.prog[s.pos]? = some (.wr .pin v)) :
    ∃ t, runUnder (fun _ => .busMaster) (k + 1) s = runUnder (fun _ => .busMaster) k t ∧ t.fault = none ∧
      t.gpioEn = true ∧ t.prog = s.prog ∧ t.pos = s.pos + 1 ∧ t.pin = v.value s := by
  refine ⟨_, runUnder_busMaster_succ k hf (busStep_wr hop (exec_pinWr hf hen) (by simpa using hf)), ?_, ?_, ?_⟩
  · simpa using hf
  · rw [State.goto_keeps_gpioEn, watchPin_gpioEn]
    exact hen
  · simp [watchPin_eq, value_with_events]

/-- A read-modify-write of PIN that is next in the program: two turns, after which PIN holds what the write makes of
the value read, and the rest of the program is to come (R80 to R82). -/
theorem run_readModifyWrite_pin (k : Nat) {tmp : Temp} {v : Source} {modify : Word → Word} {rest : List BusOp}
    (hf : s.fault = none) (hen : s.gpioEn = true) (hv : ∀ u : State, v.value u = modify (u.temp tmp))
    (hprog : s.prog.drop s.pos = .rd tmp .pin :: .wr .pin v :: rest) :
    ∃ t, runUnder (fun _ => .busMaster) (k + 2) s = runUnder (fun _ => .busMaster) k t ∧ t.fault = none ∧
      t.gpioEn = true ∧ t.prog.drop t.pos = rest ∧ t.pin = modify s.pin := by
  have hread : s.prog[s.pos]? = some (.rd tmp .pin) := by
    rw [← Nat.add_zero s.pos, ← List.getElem?_drop, hprog]; rfl
  have hwrite : s.prog[s.pos + 1]? = some (.wr .pin v) := by
    rw [← List.getElem?_drop, hprog]; rfl
  have hrest : s.prog.drop (s.pos + 2) = rest := by
    rw [← List.drop_drop, hprog]; rfl
  obtain ⟨t, hrun, hft, hent, hprogt, hpost, htmp⟩ := run_pinRd (k + 1) hf hen hread
  obtain ⟨u, hrun', hfu, henu, hprogu, hposu, hpin⟩ := run_pinWr k hft hent (by rw [hprogt, hpost]; exact hwrite)
  exact ⟨u, hrun.trans hrun', hfu, henu, by rw [hprogu, hprogt, hposu, hpost]; exact hrest, by rw [hpin, hv, htmp]⟩

/-- The first half of PIN_CONFIG clears the transmit group; the second half is to come (R82). -/
theorem run_pinConfig_clears (k : Nat) (hf : s.fault = none) (hen : s.gpioEn = true) :
    ∃ t, runUnder (fun _ => .busMaster) (k + 2) (s.load pinConfigOps) = runUnder (fun _ => .busMaster) k t ∧
      t.fault = none ∧ t.gpioEn = true ∧ t.prog.drop t.pos = [.rd .t1 .pin, .wr .pin (.set .t1 grpAfPp)] ∧
      t.pin = s.pin &&& ~~~grpMask :=
  run_readModifyWrite_pin k (s := s.load pinConfigOps) (modify := (· &&& ~~~grpMask)) hf hen (fun _ => rfl) rfl

/-- Between its two halves PIN_CONFIG leaves the transmit group cleared (R83). -/
theorem run_pinConfig_half (hf : s.fault = none) (hen : s.gpioEn = true) :
    ∃ t, runUnder (fun _ => .busMaster) 2 (s.load pinConfigOps) = .next t ∧ pinGroup t.pin Config.txGroup = 0 := by
  obtain ⟨t, hrun, -, -, -, hpin⟩ := run_pinConfig_clears 0 hf hen
  refine ⟨_, hrun.trans (runUnder_zero _ t), ?_⟩
  rw [hpin, pinGroup_cleared s.pin (by decide), if_pos rfl]

/-- PIN_CONFIG, loaded and run to its end (R82, R83). -/
theorem run_pinConfig (hf : s.fault = none) (hen : s.gpioEn = true) :
    ∃ t, runUnder (fun _ => .busMaster) 4 (s.load pinConfigOps) = .next t ∧ t.fault = none ∧ t.gpioEn = true ∧
      t.pin = withTxGroupSet s.pin := by
  obtain ⟨t, hrun, hft, hent, hrest, hpint⟩ := run_pinConfig_clears 2 hf hen
  obtain ⟨u, hrun', hfu, henu, -, hpinu⟩ :=
    run_readModifyWrite_pin 0 (modify := (· ||| grpAfPp)) hft hent (fun _ => rfl) hrest
  exact ⟨_, (hrun.trans hrun').trans (runUnder_zero _ u), hfu, henu, by rw [hpinu, hpint]; rfl⟩

end PinConfig

/-- Settles O47: both runs are `run_pinConfig`'s, and the second finds what `withTxGroupSet` leaves as it is. -/
theorem pinConfigSetsGroup : Obligations.PinConfigSetsGroup := by
  intro s hf hen
  obtain ⟨m, hhalf, hcleared⟩ := run_pinConfig_half hf hen
  obtain ⟨t, hrun, hft, hent, hpint⟩ := run_pinConfig hf hen
  obtain ⟨u, hrun', hfu, -, hpinu⟩ := run_pinConfig hft hent
  have hgroup {g : Nat} (hg : g < 8) : pinGroup t.pin g = if g = Config.txGroup then Config.afPp else pinGroup s.pin g := by
    rw [hpint, pinGroup_withTxGroupSet s.pin hg]
  have hagain : u.pin = t.pin := by rw [hpinu, hpint, withTxGroupSet_withTxGroupSet]
  exact ⟨m, t, u, hhalf, hcleared, hrun, hft, hpint, hgroup (by decide),
    fun g hg hne => (hgroup hg).trans (if_neg hne), hrun', hfu, hagain, run_pinConfig_half hft hent⟩

end Sys2Proof.Proofs

/-! The serial registers' family (spec/42_serial_registers.md): first how a chain of checks reads as nested conditions,
then the registers one by one, each after the fields of its values, and last what no access lets into the block. -/

namespace Sys2Proof.Proofs

open Sys2Proof Sys2Proof.Machine Sys2Proof.Safety

/-! ### R39: a chain of checks, read as nested conditions -/

section CheckChains

variable {s : State} {k k' : Result}

/-- A check whose condition is `c` raises where `c` holds, and what is behind it decides elsewhere (R39). -/
theorem check_eq_ite {bad : Bool} {r : Reason} {c : Prop} {_ : Decidable c} (hc : bad = true ↔ c) (hk : k = k') :
    check bad r s k = if c then .next (s.setFault r) else k' := by
  split
  next h => exact check_of_true (hc.2 h) r k
  next h => exact (check_of_false (Bool.eq_false_iff.2 fun hbad => h (hc.1 hbad)) r k).trans hk

/-- The gate of a write is the first condition of its chain (R38, R39). -/
theorem gated_eq_ite_off {enabled : Bool} (hf : s.fault = none) (hk : k = k') :
    gated enabled s k = if enabled = false then .next (s.setFault .gatedAccess) else k' :=
  (unlessFaulted_of_none hf _).trans (check_eq_ite (iff_of_eq (Bool.not_eq_true' _)) hk)

/-- The gate of an access that has no other check (R38). -/
theorem gated_eq_ite {enabled : Bool} (hf : s.fault = none) (k : Result) :
    gated enabled s k = if enabled then k else .next (s.setFault .gatedAccess) := by
  cases enabled with
  | false => exact gated_of_off hf rfl k
  | true => exact gated_of_on hf rfl k

end CheckChains

/-! ### R90 to R93: SR and DR -/

theorem getLsbD_bitIn {k : Nat} (hk : k < 32) (b : Bool) (j : Nat) : (bitIn b k).getLsbD j = (b && decide (k = j)) := by
  cases b with
  | false => simp [bitIn]
  | true => simpa [bitIn] using getLsbD_bitMask hk j

/-- A bit of what SR.RD returns: TXE in its place, the draw's bit in every other (R90). -/
theorem getLsbD_srValue (draw : Word) (txe : Bool) {j : Nat} (hj : j < 32) :
    (srValue draw txe).getLsbD j = if j = Config.txeBit then txe else draw.getLsbD j := by
  rw [srValue, txeMask, BitVec.getLsbD_or, BitVec.getLsbD_and, BitVec.getLsbD_not, getLsbD_bitMask (by decide),
    getLsbD_bitIn (by decide)]
  split
  next h => simp [h]
  next h => simp [hj, Ne.symm h]

theorem getLsbD_srValue_txeBit (draw : Word) (txe : Bool) : (srValue draw txe).getLsbD Config.txeBit = txe :=
  (getLsbD_srValue draw txe (by decide)).trans (if_pos rfl)

/-- Settles O5: the bits are `getLsbD_srValue`'s, and the first read leaves TDR, the gate and FAULT to the second. -/
theorem srReadReportsTxe : Obligations.SrReadReportsTxe := by
  refine ⟨decode_register .sr false, fun s hf hoff => gated_of_off hf hoff _, fun s hf hen =>
    ⟨_, exec_srRd hf hen, rfl, ?_, fun k hk hne => ?_, _, exec_srRd hf hen, ?_⟩⟩
  · exact getLsbD_srValue_txeBit _ _
  · exact (getLsbD_srValue _ _ hk).trans (if_neg hne)
  · exact (getLsbD_srValue_txeBit _ _).trans (getLsbD_srValue_txeBit _ s.txe).symm

/-- Settles O6: behind the gate SR.WR has no check and no effect. -/
theorem srWriteHasNoEffect : Obligations.SrWriteHasNoEffect :=
  ⟨decode_register .sr true, fun s _ hf => gated_eq_ite hf (.next s)⟩

section Data

variable {s t : State} {w : Word}

theorem exec_drRd (hf : s.fault = none) (hen : s.uartEn = true) :
    exec .drRd s = .next (s.setRdata (Config.drRead s.draws)).nextDraw :=
  gated_of_on hf hen _

theorem not_txe_eq_true : (!s.txe) = true ↔ s.tdr ≠ none := by
  rw [Bool.not_eq_true', ← Bool.not_eq_true, txe_eq_true]

theorem not_ue_and_te_eq_true {ue te : Bool} : (!(ue && te)) = true ↔ ue = false ∨ te = false := by
  rw [Bool.not_eq_true', Bool.and_eq_false_iff]

/-- An accepted DR.WR finds TDR empty and fills it, so TXE falls from 1 to 0 (R92). -/
theorem drWr_lowers_txe (h : exec (.drWr w) s = .next t) (hft : t.fault = none) : s.txe = true ∧ t.txe = false := by
  obtain ⟨-, ⟨r, rfl⟩ | ⟨-, -, -, -, htdr, -, rfl⟩⟩ := exec_next h
  · simp at hft
  · exact ⟨txe_eq_true.2 htdr, rfl⟩

end Data

/-- Settles O8: behind the gate DR.RD has no check, and draws. -/
theorem drReadReturnsDraw : Obligations.DrReadReturnsDraw :=
  ⟨decode_register .dr false, fun _ hf hoff => gated_of_off hf hoff _, fun _ => exec_drRd⟩

/-- Settles O7: the chain of R92 check by check, each with its condition. -/
theorem drWriteFillsTdr : Obligations.DrWriteFillsTdr :=
  ⟨decode_register .dr true,
    fun _ _ hf => gated_eq_ite_off hf <| check_eq_ite bne_iff_ne <| check_eq_ite not_ue_and_te_eq_true <|
      check_eq_ite not_txe_eq_true <| check_eq_ite decide_eq_true_iff rfl,
    fun _ _ _ => drWr_lowers_txe⟩

/-! ### R94, R95: BRR -/

/-- Settles O9: behind the gate BRR.RD has no check, and CLK_MASK opens the gate. -/
theorem brrReadReturnsDivisor : Obligations.BrrReadReturnsDivisor :=
  ⟨decode_register .brr false, fun s hf => gated_eq_ite hf (.next (s.setRdata (s.brr.setWidth 32))),
    exec_brrRd rfl (by decide)⟩

/-- Settles O10: the chain of R95 check by check, each with its condition. -/
theorem brrWriteNeedsDisabled : Obligations.BrrWriteNeedsDisabled :=
  ⟨decode_register .brr true,
    fun _ _ hf => gated_eq_ite_off hf <| check_eq_ite bne_iff_ne <| check_eq_ite Iff.rfl rfl⟩

/-! ### R96, R97: CR -/

section Control

variable {s : State} {w : Word}

theorem bitIn_eq_shiftLeft (b : Bool) (k : Nat) : bitIn b k = (BitVec.ofBool b).setWidth 32 <<< k := by
  cases b with
  | false => simp [bitIn]
  | true => rfl

/-! The fields of what CR.RD returns, when they are written back (R96, R97). -/

theorem crReserved_crValue (ue te : Bool) : crReserved (crValue ue te) = false := by revert ue te; decide
theorem crUe_crValue (ue te : Bool) : crUe (crValue ue te) = ue := by revert ue te; decide
theorem crTe_crValue (ue te : Bool) : crTe (crValue ue te) = te := by revert ue te; decide

theorem busy_eq_true : s.busy = true ↔ s.tdr ≠ none ∨ s.tsr ≠ none := by
  rw [State.busy, Bool.or_eq_true, Option.isSome_iff_ne_none, Option.isSome_iff_ne_none]

/-- The last check of R97: a byte is inside and the write clears UE or TE. -/
theorem disablesWhileBusy_eq_true : (s.busy && !(crUe w && crTe w)) = true ↔
    (s.tdr ≠ none ∨ s.tsr ≠ none) ∧ (crUe w = false ∨ crTe w = false) := by
  rw [Bool.and_eq_true, busy_eq_true, not_ue_and_te_eq_true]

/-- Writing CR with the value it holds changes nothing where a byte inside means enabled (R22, R97). -/
theorem exec_crWr_crValue (hf : s.fault = none) (hen : s.uartEn = true) (hinv : BusyMeansEnabled s) :
    exec (.crWr (crValue s.ue s.te)) s = .next s := by
  have hon : s.busy = true → crUe (crValue s.ue s.te) = true ∧ crTe (crValue s.ue s.te) = true := fun hbusy => by
    obtain ⟨hue, hte, -⟩ := hinv hbusy
    exact ⟨(crUe_crValue _ _).trans hue, (crTe_crValue _ _).trans hte⟩
  rw [exec_crWr hf hen (crReserved_crValue _ _) hon, crUe_crValue, crTe_crValue, State.setCr]

end Control

/-- Settles O11: behind the gate CR.RD has no check, and each enable is a bit shifted to its place. -/
theorem crReadReturnsEnables : Obligations.CrReadReturnsEnables := by
  refine ⟨decode_register .cr false, fun s hf => ?_, exec_crRd rfl (by decide)⟩
  rw [← bitIn_eq_shiftLeft, ← bitIn_eq_shiftLeft]
  exact gated_eq_ite hf (.next (s.setRdata (crValue s.ue s.te)))

/-- Settles O12: the chain of R97 check by check, each with its condition. -/
theorem crWriteSetsEnables : Obligations.CrWriteSetsEnables :=
  ⟨decode_register .cr true,
    fun _ _ hf => gated_eq_ite_off hf <| check_eq_ite bne_iff_ne <| check_eq_ite disablesWhileBusy_eq_true rfl,
    fun _ => exec_crWr_crValue⟩

/-! ### R30, R90, R93: what the block becomes is a function of the block -/

section SameBlock

variable {s s' t t' : State} {k k' : Result}

/-- Where the first answers a next state the second does, with the same block. -/
def SameBlockNext (k k' : Result) : Prop :=
  ∀ t, k = .next t → ∃ t', k' = .next t' ∧ SameBlock t t'

theorem SameBlockNext_next (hsame : SameBlock t t') : SameBlockNext (.next t) (.next t') := by
  rintro _ ⟨⟩
  exact ⟨t', rfl, hsame⟩

theorem SameBlockNext_raise (r : Reason) (hsame : SameBlock s s') : SameBlockNext (raise r s) (raise r s') := by
  obtain ⟨hclk, hpin, hbrr, hue, hte, htdr, htsr, hlog, -⟩ := hsame
  exact SameBlockNext_next ⟨hclk, hpin, hbrr, hue, hte, htdr, htsr, hlog, rfl⟩

theorem SameBlockNext_unlessFaulted (hsame : SameBlock s s') (hk : SameBlockNext k k') :
    SameBlockNext (unlessFaulted s k) (unlessFaulted s' k') := by
  obtain ⟨-, -, -, -, -, -, -, -, hfault⟩ := hsame
  intro t h
  obtain ⟨hf, hnext⟩ := unlessFaulted_next.1 h
  rw [unlessFaulted_of_none (hfault.symm.trans hf)]
  exact hk t hnext

/-- A check that reads the block alone has the same outcome (R39). -/
theorem SameBlockNext_check {bad bad' : Bool} (r : Reason) (hsame : SameBlock s s') (hbad : bad = bad')
    (hk : SameBlockNext k k') : SameBlockNext (check bad r s k) (check bad' r s' k') := by
  subst hbad
  cases bad with
  | false => exact hk
  | true => exact SameBlockNext_raise r hsame

theorem uartEn_congr (hsame : SameBlock s s') : s.uartEn = s'.uartEn := by
  obtain ⟨hclk, -⟩ := hsame
  rw [State.uartEn, State.uartEn, hclk]

theorem gpioEn_congr (hsame : SameBlock s s') : s.gpioEn = s'.gpioEn := by
  obtain ⟨hclk, -⟩ := hsame
  rw [State.gpioEn, State.gpioEn, hclk]

/-- A gated access whose gate and effect read the block alone (R38). -/
theorem SameBlockNext_gated {enabled enabled' : Bool} (hsame : SameBlock s s') (hen : enabled = enabled')
    (hk : SameBlockNext k k') : SameBlockNext (gated enabled s k) (gated enabled' s' k') :=
  SameBlockNext_unlessFaulted hsame (SameBlockNext_check .gatedAccess hsame (congrArg _ hen) hk)

/-- Watching the pin reads and changes the block alone (R85, R86). -/
theorem SameBlock_watchPin (hsame : SameBlock s s') : SameBlock s.watchPin s'.watchPin := by
  obtain ⟨hclk, hpin, hbrr, hue, hte, htdr, htsr, hlog, hfault⟩ := hsame
  rw [watchPin_eq, watchPin_eq, pinVisible_congr hclk hpin, htsr]
  exact ⟨hclk, hpin, hbrr, hue, hte, htdr, rfl, hlog, hfault⟩

/-- What an instruction makes of the block depends on the block alone: a read changes none of it, whatever it draws. -/
theorem SameBlockNext_exec (i : Instr) (hsame : SameBlock s s') : SameBlockNext (exec i s) (exec i s') := by
  have hgpio := gpioEn_congr hsame
  have huart := uartEn_congr hsame
  obtain ⟨hclk, hpin, hbrr, hue, hte, htdr, htsr, hlog, hfault⟩ := id hsame
  cases i with
  | clkRd => exact SameBlockNext_unlessFaulted hsame (SameBlockNext_next hsame)
  | clkWr w =>
    exact SameBlockNext_unlessFaulted hsame <| SameBlockNext_next <|
      SameBlock_watchPin (s := s.setClk w) (s' := s'.setClk w) ⟨rfl, hpin, hbrr, hue, hte, htdr, htsr, hlog, hfault⟩
  | pinRd => exact SameBlockNext_gated hsame hgpio (SameBlockNext_next hsame)
  | pinWr w =>
    exact SameBlockNext_gated hsame hgpio <| SameBlockNext_next <|
      SameBlock_watchPin (s := s.setPin w) (s' := s'.setPin w) ⟨hclk, rfl, hbrr, hue, hte, htdr, htsr, hlog, hfault⟩
  | srRd | srWr _ | drRd | brrRd | crRd => exact SameBlockNext_gated hsame huart (SameBlockNext_next hsame)
  | drWr w =>
    exact SameBlockNext_gated hsame huart <| SameBlockNext_check _ hsame rfl <|
      SameBlockNext_check _ hsame (by rw [hue, hte]) <|
      SameBlockNext_check _ hsame (by rw [State.txe, State.txe, htdr]) <|
      SameBlockNext_check _ hsame (by rw [hbrr]) <|
      SameBlockNext_next ⟨hclk, hpin, hbrr, hue, hte, rfl, htsr, hlog, hfault⟩
  | brrWr w =>
    exact SameBlockNext_gated hsame huart <| SameBlockNext_check _ hsame rfl <| SameBlockNext_check _ hsame hue <|
      SameBlockNext_next ⟨hclk, hpin, rfl, hue, hte, htdr, htsr, hlog, hfault⟩
  | crWr w =>
    exact SameBlockNext_gated hsame huart <| SameBlockNext_check _ hsame rfl <|
      SameBlockNext_check _ hsame (by rw [State.busy, State.busy, htdr, htsr]) <|
      SameBlockNext_next ⟨hclk, hpin, hbrr, rfl, rfl, htdr, htsr, hlog, hfault⟩
  | unmappedRd _ _ | unmappedWr _ _ _ => exact SameBlockNext_unlessFaulted hsame (SameBlockNext_raise _ hsame)

end SameBlock

/-- Settles O34, instruction by instruction. -/
theorem drawsNeverReachTheBlock : Obligations.DrawsNeverReachTheBlock :=
  fun i _ _ t hsame h => SameBlockNext_exec i hsame t h

end Sys2Proof.Proofs

/-! The transmit engine's family (spec/43_transmit_engine.md): first the engine's two steps and what its turn leaves
unchanged, then the order of the bytes and the divisors of the frames under every agent's step, the states in which
nothing is left to do, and last the serial line. -/

namespace Sys2Proof.Proofs

open Sys2Proof Sys2Proof.Machine Sys2Proof.Safety

/-! ### R110, R111: TX_LOAD and TX_DONE -/

section EngineSteps

variable {s t : State} {b : Byte} {f : Frame}

theorem engineOn_eq_true : s.engineOn = true ↔ s.uartEn = true ∧ s.ue = true ∧ s.te = true := by
  rw [State.engineOn, Bool.and_eq_true, Bool.and_eq_true, and_assoc]

theorem engineOn_eq_false : s.engineOn = false ↔ s.uartEn = false ∨ s.ue = false ∨ s.te = false := by
  rw [State.engineOn, Bool.and_eq_false_iff, Bool.and_eq_false_iff, or_assoc]

theorem txLoad_isSome : s.txLoad.isSome = true ↔ s.engineOn = true ∧ s.tdr ≠ none ∧ s.tsr = none := by
  simp only [Option.isSome_iff_exists, txLoad_some, Option.ne_none_iff_exists']
  constructor
  · rintro ⟨t, hon, htsr, b, htdr, -⟩
    exact ⟨hon, ⟨b, htdr⟩, htsr⟩
  · rintro ⟨hon, ⟨b, htdr⟩, htsr⟩
    exact ⟨_, hon, htsr, b, htdr, rfl⟩

theorem txDone_isSome : s.txDone.isSome = true ↔ s.engineOn = true ∧ s.tsr ≠ none := by
  simp only [Option.isSome_iff_exists, txDone_some, Option.ne_none_iff_exists']
  constructor
  · rintro ⟨t, hon, f, htsr, -⟩
    exact ⟨hon, f, htsr⟩
  · rintro ⟨hon, f, htsr⟩
    exact ⟨_, hon, f, htsr, rfl⟩

/-- The engine's turn takes TX_LOAD where it is enabled. -/
theorem engineStep_of_txLoad (h : s.txLoad = some t) : s.engineStep = t := by rw [State.engineStep, h]

/-- The engine's turn takes TX_DONE where it is enabled: the frame in TSR rules TX_LOAD out. -/
theorem engineStep_of_txDone (h : s.txDone = some t) : s.engineStep = t := by
  obtain ⟨-, f, htsr, -⟩ := txDone_some.1 h
  have hload : s.txLoad = none := by
    rw [← Option.not_isSome_iff_eq_none, txLoad_isSome]
    rintro ⟨-, -, hempty⟩
    simp [hempty] at htsr
  rw [State.engineStep, hload, h]

theorem txLoad_of_waiting (hon : s.engineOn = true) (htdr : s.tdr = some b) (htsr : s.tsr = none) :
    s.txLoad = some ((s.setTsr (some ⟨b, s.brr, s.pinVisible⟩)).setTdr none) :=
  txLoad_some.2 ⟨hon, htsr, b, htdr, rfl⟩

theorem txDone_of_sending (hon : s.engineOn = true) (htsr : s.tsr = some f) :
    s.txDone = some ((s.appendLog [f]).setTsr none) :=
  txDone_some.2 ⟨hon, f, htsr, rfl⟩

/-! With neither step enabled the engine's turn changes nothing (R112, R119). -/

theorem engineStep_of_off (hoff : s.engineOn = false) : s.engineStep = s := by
  obtain ⟨hon, -⟩ | ⟨hon, -⟩ | h := engineStep_effect s
  · simp [hon] at hoff
  · simp [hon] at hoff
  · exact h

theorem engineStep_of_empty (htdr : s.tdr = none) (htsr : s.tsr = none) : s.engineStep = s := by
  obtain ⟨-, -, -, b, hfull, -⟩ | ⟨-, f, hfull, -⟩ | h := engineStep_effect s
  · simp [htdr] at hfull
  · simp [htsr] at hfull
  · exact h

/-- The engine has nothing to do where it is off or where nothing is inside (R112, R119). -/
theorem engineStep_of_idle (hidle : s.engineOn = false ∨ s.tdr = none ∧ s.tsr = none) : s.engineStep = s :=
  hidle.elim engineStep_of_off fun ⟨htdr, htsr⟩ => engineStep_of_empty htdr htsr

/-- On its turn the engine takes its step, the event used (R47). -/
theorem step_engine (hf : s.fault = none) (he : s.nextEvent = .engine) : step s = .next s.tookEvent.engineStep := by
  rw [step, unlessFaulted_of_none hf, he, runEvent]

/-- An idle turn of the engine only uses up the event (R112). -/
theorem step_engine_idle (hf : s.fault = none) (he : s.nextEvent = .engine)
    (hidle : s.engineOn = false ∨ s.tdr = none ∧ s.tsr = none) : step s = .next s.tookEvent := by
  rw [step_engine hf he, engineStep_of_idle (by simpa using hidle)]

end EngineSteps

/-- Settles O20: the enabling condition and the effect are those of `txLoad`; a rise of TXE is traced in O32. -/
theorem txLoadMovesByteToLine : Obligations.TxLoadMovesByteToLine := by
  obtain ⟨-, -, hrise, -⟩ := txeFallsOnlyOnDataWrite
  refine ⟨fun s => ?_, fun s b huart hue hte htdr htsr => ?_, fun s => step_engine, hrise⟩
  · rw [txLoad_isSome, engineOn_eq_true, and_assoc, and_assoc]
    rfl
  · have hload := txLoad_of_waiting (engineOn_eq_true.2 ⟨huart, hue, hte⟩) htdr htsr
    exact ⟨hload, engineStep_of_txLoad hload⟩

/-- Settles O21: TX_DONE empties TSR and leaves the rest of TX_LOAD's condition; the last clause is R86's, for the pin
of an unclocked peripheral is not visible. -/
theorem txDoneLogsFrame : Obligations.TxDoneLogsFrame := by
  refine ⟨fun s => ?_, fun s f huart hue hte htsr => ?_, fun s t h htdr => ?_, fun s t w hoff h => ?_⟩
  · rw [txDone_isSome, engineOn_eq_true, and_assoc, and_assoc]
    rfl
  · have hdone := txDone_of_sending (engineOn_eq_true.2 ⟨huart, hue, hte⟩) htsr
    exact ⟨hdone, engineStep_of_txDone hdone⟩
  · obtain ⟨hon, f, -, rfl⟩ := txDone_some.1 h
    exact txLoad_isSome.2 ⟨hon, htdr, rfl⟩
  · obtain ⟨hf, -⟩ := exec_next h
    obtain rfl : (s.setClk w).watchPin = t := Host.Outcome.next.inj ((exec_clkWr hf).symm.trans h)
    have hclk : (s.setClk w).uartEn = false := hoff
    exact ⟨txDone_of_uart_off (by rw [watchPin_uartEn, hclk]),
      fun f => watchPin_ok_of_hidden (pinVisible_of_uart_off hclk)⟩

/-- Settles O23: the engine is off by any of the three bits, the invariant is read backwards, and CR.WR's frame is that
of every instruction that is no write of DR, CLK or PIN. -/
theorem engineFrozenWhileOff : Obligations.EngineFrozenWhileOff := by
  refine ⟨fun s hoff => engineStep_of_off (engineOn_eq_false.2 hoff), fun s hinv hoff => ?_, fun s t w h => ?_⟩
  · have hidle : ¬ s.busy = true := fun hbusy => by
      obtain ⟨hue, hte, -⟩ := hinv hbusy
      simp [hue, hte] at hoff
    rwa [busy_eq_true, not_or, not_not, not_not] at hidle
  · obtain ⟨-, -, -, -, htdr, htsr⟩ := exec_keeps_registers h
    exact ⟨htdr (by simp), htsr (by simp) (by simp)⟩

/-! ### R112 to R115: what the engine's turns make of the bytes inside -/

section Drain

variable {s : State}

/-- What the log holds once the engine has sent all that is inside, with BRR and the pin as they are now: the frame in
TSR behind the log, then that which TX_LOAD will make of the byte in TDR (R110, R111). -/
def drainedLog (s : State) : List Frame :=
  s.txlog ++ s.tsr.toList ++ (s.tdr.map fun b => (⟨b, s.brr, s.pinVisible⟩ : Frame)).toList

/-- How many turns the enabled engine needs to send what is inside: one for a frame in TSR, two for a byte in TDR. -/
def turnsToDrain (s : State) : Nat := s.tsr.toList.length + 2 * s.tdr.toList.length

theorem drainedLog_engineStep (s : State) : drainedLog s.engineStep = drainedLog s := by
  obtain ⟨-, htsr, -, b, htdr, heq⟩ | ⟨-, f, htsr, heq⟩ | heq := engineStep_effect s <;> rw [heq]
  · simp [drainedLog, htsr, htdr]
  · simp [drainedLog, htsr]

theorem turnsToDrain_engineStep (hon : s.engineOn = true) : turnsToDrain s.engineStep = turnsToDrain s - 1 := by
  cases htsr : s.tsr with
  | some f => simp [engineStep_of_txDone (txDone_of_sending hon htsr), turnsToDrain, htsr]
  | none =>
    cases htdr : s.tdr with
    | some b => simp [engineStep_of_txLoad (txLoad_of_waiting hon htdr htsr), turnsToDrain, htsr, htdr]
    | none => simp [engineStep_of_empty htdr htsr, turnsToDrain, htsr, htdr]

/-- The engine does not turn itself off (R112). -/
theorem engineOn_engineStep (s : State) : s.engineStep.engineOn = s.engineOn := by
  obtain ⟨hclk, -, -, hue, hte, -⟩ := SameRegisters_engineStep s
  simp only [State.engineOn, State.uartEn, hclk, hue, hte]

theorem drainedLog_iterate (n : Nat) (s : State) : drainedLog (Nat.iterate State.engineStep n s) = drainedLog s := by
  induction n generalizing s with
  | zero => rfl
  | succ n ih => exact (ih s.engineStep).trans (drainedLog_engineStep s)

theorem turnsToDrain_iterate (n : Nat) (hon : s.engineOn = true) :
    turnsToDrain (Nat.iterate State.engineStep n s) = turnsToDrain s - n := by
  induction n generalizing s with
  | zero => rfl
  | succ n ih =>
    calc turnsToDrain (Nat.iterate State.engineStep n s.engineStep)
        = turnsToDrain s.engineStep - n := ih ((engineOn_engineStep s).trans hon)
      _ = turnsToDrain s - (n + 1) := by rw [turnsToDrain_engineStep hon]; omega

theorem turnsToDrain_le_three (s : State) : turnsToDrain s ≤ 3 := by
  have htsr := Option.length_toList_le (o := s.tsr)
  have htdr := Option.length_toList_le (o := s.tdr)
  rw [turnsToDrain]
  omega

theorem tdr_of_turnsToDrain_le_one (h : turnsToDrain s ≤ 1) : s.tdr = none := by
  cases htdr : s.tdr with
  | none => rfl
  | some b =>
    simp only [turnsToDrain, htdr, Option.toList_some, List.length_singleton] at h
    omega

theorem tsr_of_turnsToDrain_eq_zero (h : turnsToDrain s = 0) : s.tsr = none := by
  simpa using (Nat.add_eq_zero_iff.1 h).1

/-- With both buffers empty the log is all there is. -/
theorem drainedLog_of_empty (htdr : s.tdr = none) (htsr : s.tsr = none) : drainedLog s = s.txlog := by
  simp [drainedLog, htdr, htsr]

/-- The bytes of the order of R113 are those of the log once all is sent. -/
theorem drainedLog_data (s : State) : (drainedLog s).map Frame.data = byteOrder s := by
  cases htsr : s.tsr <;> cases htdr : s.tdr <;> simp [drainedLog, byteOrder, htsr, htdr]

theorem byteOrder_engineStep (s : State) : byteOrder s.engineStep = byteOrder s := by
  rw [← drainedLog_data, drainedLog_engineStep, drainedLog_data]

theorem engineStep_tdr (s : State) : s.engineStep.tdr = s.tdr ∨ s.engineStep.tdr = none := by
  obtain ⟨-, -, -, b, -, heq⟩ | ⟨-, f, -, heq⟩ | heq := engineStep_effect s <;> rw [heq]
  · exact .inr rfl
  · exact .inl rfl
  · exact .inl rfl

/-- The engine touches nothing of the bus master (R30). -/
theorem engineStep_keeps_master (s : State) :
    SameMaster s.engineStep s ∧ s.engineStep.rdata = s.rdata ∧ s.engineStep.draws = s.draws := by
  obtain ⟨-, -, -, b, -, heq⟩ | ⟨-, f, -, heq⟩ | heq := engineStep_effect s <;> rw [heq]
  all_goals exact ⟨⟨rfl, rfl, rfl, rfl, rfl⟩, rfl, rfl⟩

theorem byteOrder_congr {t : State} (hlog : t.txlog = s.txlog) (htsr : t.tsr.map Frame.data = s.tsr.map Frame.data)
    (htdr : t.tdr = s.tdr) : byteOrder t = byteOrder s := by
  rw [byteOrder, byteOrder, hlog, htsr, htdr]

theorem byteOrder_of_sameBlock {t : State} (hsame : SameBlock t s) : byteOrder t = byteOrder s := by
  obtain ⟨-, -, -, -, -, htdr, htsr, hlog, -⟩ := hsame
  exact byteOrder_congr hlog (congrArg _ htsr) htdr

end Drain

/-- Settles O22: the engine's turn keeps registers, bus master and byte order, and using up the event keeps the rest. -/
theorem engineHasNoOtherStep : Obligations.EngineHasNoOtherStep := by
  intro s hf he
  refine ⟨_, step_engine hf he, ?_⟩
  obtain ⟨hclk, hpin, hbrr, hue, hte, hfault⟩ := SameRegisters_engineStep s.tookEvent
  obtain ⟨⟨hprog, hpos, ht0, ht1, hspin⟩, hrdata, hdraws⟩ := engineStep_keeps_master s.tookEvent
  refine ⟨by simpa using hclk, by simpa using hpin, by simpa using hbrr, by simpa using hue, by simpa using hte,
    by simpa [hf] using hfault, by simpa using engineStep_tdr s.tookEvent,
    (byteOrder_engineStep _).trans (byteOrder_of_sameBlock (SameBlock_tookEvent s)),
    ⟨by simpa using hprog, by simpa using hpos, by simpa using ht0, by simpa using ht1, by simpa using hspin⟩,
    by simpa using hrdata, by simpa using hdraws, fun htdr htsr => ?_⟩
  rw [engineStep_of_empty (by simpa using htdr) (by simpa using htsr)]
  exact SameBlock_tookEvent s

/-- Settles O24: each turn of the enabled engine takes one from the turns that are left, of which there are at most
three, and keeps the log that all of them make. -/
theorem engineDrainsInThreeTurns : Obligations.EngineDrainsInThreeTurns := by
  intro s hon
  have hmax := turnsToDrain_le_three s
  have htwo := turnsToDrain_iterate 2 hon
  refine ⟨tdr_of_turnsToDrain_le_one (by omega), ?_⟩
  rintro u rfl
  have hthree := turnsToDrain_iterate 3 hon
  have htdr := tdr_of_turnsToDrain_le_one (s := Nat.iterate State.engineStep 3 s) (by omega)
  have htsr := tsr_of_turnsToDrain_eq_zero (s := Nat.iterate State.engineStep 3 s) (by omega)
  exact ⟨htdr, htsr, (drainedLog_of_empty htdr htsr).symm.trans (drainedLog_iterate 3 s), engineStep_of_empty htdr htsr⟩

/-! ### R113, R172: the bytes leave in the order in which they came -/

section ByteOrder

variable {s t : State} {i : Instr}

/-- The byte that an instruction hands to the block when it is accepted (R92). -/
def writtenByte : Instr → List Byte
  | .drWr w => [drByte w]
  | _ => []

theorem writtenByte_of_ne (hi : ∀ w, i ≠ .drWr w) : writtenByte i = [] := by
  rw [writtenByte]
  exact hi

/-- An accepted DR.WR puts its byte behind all others; no other instruction adds, drops or moves one (R113). -/
theorem exec_byteOrder (h : exec i s = .next t) (hft : t.fault = none) :
    byteOrder t = byteOrder s ++ writtenByte i := by
  by_cases hi : ∃ w, i = .drWr w
  · obtain ⟨w, rfl⟩ := hi
    obtain ⟨-, ⟨r, rfl⟩ | ⟨-, -, -, -, hempty, -, rfl⟩⟩ := exec_next h
    · simp at hft
    · simp [byteOrder, writtenByte, hempty]
  · obtain ⟨-, -, -, -, htdr, -⟩ := exec_keeps_registers h
    obtain ⟨hdata, -⟩ := exec_keeps_line h
    have hne : ∀ w, i ≠ .drWr w := fun w hw => hi ⟨w, hw⟩
    rw [writtenByte_of_ne hne, List.append_nil, byteOrder_congr (exec_keeps_txlog h) hdata (htdr hne)]

/-- A reset loses the byte in TDR and no other (R172). -/
theorem byteOrder_environmentReset (s : State) :
    byteOrder s.environmentReset = s.txlog.map Frame.data ++ (s.tsr.map Frame.data).toList := by
  cases htsr : s.tsr <;> simp [byteOrder, htsr]

theorem acceptedByte_of_no_command (h : ∀ op, s.prog[s.pos]? = some op → op.command s = none) :
    acceptedByte s t = [] := by
  have hnone : (s.prog[s.pos]?.bind fun op => op.command s) = none := by simpa [Option.bind_eq_none_iff] using h
  rw [acceptedByte, hnone]

theorem acceptedByte_of_fault {r : Reason} (hft : t.fault = some r) : acceptedByte s t = [] := by
  rw [acceptedByte, hft]
  split
  next c _ =>
    cases decode c with
    | error e => rfl
    | ok i => cases i <;> rfl
  next => rfl

theorem acceptedByte_of_ok {op : BusOp} {c : Command} (hop : s.prog[s.pos]? = some op) (hc : op.command s = some c)
    (hi : decode c = .ok i) (hft : t.fault = none) : acceptedByte s t = writtenByte i := by
  simp only [acceptedByte, hop, Option.bind_some, hc, hi, hft]
  cases i <;> rfl

/-- Each agent's step, and the bytes inside: a reset loses the one in TDR, the bus master adds the one it hands over,
the engine leaves them alone (R113, R172). -/
theorem step_byteOrder (h : step s = .next t) :
    (s.nextEvent = .reset ∧ byteOrder t = s.txlog.map Frame.data ++ (s.tsr.map Frame.data).toList) ∨
    (s.nextEvent = .engine ∧ byteOrder t = byteOrder s) ∨
    (s.nextEvent = .busMaster ∧ byteOrder t = byteOrder s ++ acceptedByte s t) := by
  have htook : byteOrder s.tookEvent = byteOrder s := byteOrder_of_sameBlock (SameBlock_tookEvent s)
  obtain ⟨-, ⟨he, rfl⟩ | ⟨he, rfl⟩ | ⟨he, hbus⟩⟩ := step_effect h
  · exact .inl ⟨he, by rw [byteOrder_environmentReset, State.tookEvent_txlog, State.tookEvent_tsr]⟩
  · exact .inr (.inl ⟨he, (byteOrder_engineStep _).trans htook⟩)
  · refine .inr (.inr ⟨he, ?_⟩)
    obtain ⟨hsame, hnone⟩ | ⟨r, rfl⟩ | ⟨op, c, i, x, hop, hc, hi, hexec, hfx, rfl⟩ := hbus
    · rw [acceptedByte_of_no_command hnone, List.append_nil, byteOrder_of_sameBlock hsame]
    · rw [acceptedByte_of_fault (State.setFault_fault _ r), List.append_nil]
      exact htook
    · have hsame := SameBlock_receive_goto op x (x.pos + 1)
      obtain ⟨-, -, -, -, -, -, -, -, hfault⟩ := id hsame
      rw [acceptedByte_of_ok hop hc hi (hfault.trans hfx), byteOrder_of_sameBlock hsame, exec_byteOrder hexec hfx, htook]

end ByteOrder

/-- Settles O30: `step_byteOrder` for the agents' steps, `exec_byteOrder` for the transactions. -/
theorem bytesLeaveInOrder : Obligations.BytesLeaveInOrder := by
  refine ⟨fun s t h => ?_, fun i s t h hft => ?_⟩
  · obtain ⟨he, horder⟩ | ⟨he, horder⟩ | ⟨he, horder⟩ := step_byteOrder h
    · rw [horder, he, if_pos rfl]
    · rw [horder, he, if_neg (by decide), if_neg (by decide)]
    · rw [horder, he, if_neg (by decide), if_pos rfl]
  · rw [exec_byteOrder h hft]
    cases i <;> rfl

/-! ### R22, R95, R110: the divisor of the frame on the line -/

section Divisor

variable {s t : State} {i : Instr}

/-- Only BRR.WR changes BRR, and it finds UE = 0, so no frame is on the line (R22, R95). -/
theorem exec_brr (hbusy : BusyMeansEnabled s) (h : exec i s = .next t) : t.brr = s.brr ∨ t.tsr = none := by
  by_cases hi : ∃ w, i = .brrWr w
  · obtain ⟨w, rfl⟩ := hi
    obtain ⟨-, ⟨r, rfl⟩ | ⟨-, -, hue, rfl⟩⟩ := exec_next h
    · exact .inl rfl
    · obtain ⟨-, hfrozen, -⟩ := engineFrozenWhileOff
      exact .inr (hfrozen s hbusy (.inl hue)).2
  · obtain ⟨-, -, hbrr, -⟩ := exec_keeps_registers h
    exact .inl (hbrr fun w hw => hi ⟨w, hw⟩)

/-- No step changes BRR under a frame on the line (R22, R95, R112, R171). -/
theorem step_brr (hbusy : BusyMeansEnabled s) (h : step s = .next t) : t.brr = s.brr ∨ t.tsr = none := by
  obtain ⟨-, ⟨-, rfl⟩ | ⟨-, rfl⟩ | ⟨-, ⟨hsame, -⟩ | ⟨r, rfl⟩ | ⟨op, c, i, x, -, -, -, hexec, -, rfl⟩⟩⟩ := step_effect h
  · exact .inr rfl
  · obtain ⟨-, -, hbrr, -⟩ := SameRegisters_engineStep s.tookEvent
    exact .inl (hbrr.trans (State.tookEvent_brr s))
  · obtain ⟨-, -, hbrr, -⟩ := hsame
    exact .inl hbrr
  · exact .inl (State.tookEvent_brr s)
  · obtain ⟨-, -, hbrr, -, -, -, htsr, -⟩ := SameBlock_receive_goto op x (x.pos + 1)
    rw [hbrr, htsr, ← State.tookEvent_brr s]
    exact exec_brr (BusyMeansEnabled_of_sameBlock (SameBlock_tookEvent s) hbusy) hexec

/-- A frame that stays on the line keeps its divisor, and one that is put there takes BRR's (R18, R110). -/
theorem step_keeps_lineHasDivisor (hbusy : BusyMeansEnabled s) (hline : LineHasDivisor s) (h : step s = .next t) :
    LineHasDivisor t := by
  intro g hg
  obtain hbrr | hempty := step_brr hbusy h
  · rw [hbrr]
    obtain hkept | hcleared | hnone | ⟨-, b, -, hload⟩ := step_tsr h
    · exact hline g (hkept.symm.trans hg)
    · obtain ⟨f, hf, rfl⟩ := Option.map_eq_some_iff.1 (hcleared.symm.trans hg)
      exact hline f hf
    · simp [hnone] at hg
    · obtain rfl : ⟨b, s.brr, s.pinVisible⟩ = g := Option.some.inj (hload.symm.trans hg)
      rfl
  · simp [hempty] at hg

/-- What is appended to the log is the frame on the line, whose divisor is BRR's and so a usable one (R21, R22). -/
theorem step_keeps_logTimed (hbusy : BusyMeansEnabled s) (hline : LineHasDivisor s) (hlog : LogTimed s)
    (h : step s = .next t) : LogTimed t := by
  obtain ⟨-, hkept⟩ | ⟨-, hkept | ⟨f, htsr, happend⟩⟩ | ⟨-, hreset⟩ := step_txlog h
  · rwa [LogTimed, hkept]
  · rwa [LogTimed, hkept]
  · intro g hg
    rw [happend, List.mem_append, List.mem_singleton] at hg
    obtain hg | rfl := hg
    · exact hlog g hg
    · exact line_timed hbusy hline htsr
  · rw [LogTimed, hreset, ← environmentReset_txlog]
    exact environmentReset_logTimed hbusy hline hlog

end Divisor

/-- Settles O26, invariant by invariant. -/
theorem framesKeepTheirDivisorKept : Obligations.FramesKeepTheirDivisorKept := by
  rintro s t ⟨hbusy, hline, hlog⟩ h
  exact ⟨step_keeps_busyMeansEnabled hbusy h, step_keeps_lineHasDivisor hbusy hline h,
    step_keeps_logTimed hbusy hline hlog h⟩

/-! ### R118, R153: states in which nothing is left to do -/

section Final

variable {s : State} {op : BusOp}

theorem final_eq_true : final s = true ↔ issuedLast s = true ∧ s.tdr = none ∧ s.tsr = none ∧ s.fault = none := by
  simp [final, State.busy, and_assoc]

theorem programOver_eq_true : programOver s = true ↔ s.prog[s.pos]? = none := by
  rw [programOver, Option.isNone_iff_eq_none]

/-- Past the end of its program the bus master has issued its last transaction (R118 (c)). -/
theorem issuedLast_of_programOver (h : programOver s = true) : issuedLast s = true := by
  rw [programOver_eq_true] at h
  rw [issuedLast]
  cases s.prog.length with
  | zero => rw [endsQuietly, h]; rfl
  | succ k => rw [endsQuietly, h]

/-- An operation on a quiet way to the end is a control form (R146). -/
theorem leave_of_issuedLast (h : issuedLast s = true) (hop : s.prog[s.pos]? = some op) :
    ∃ p, op.leave s.t0 s.pos = some p := by
  rw [issuedLast] at h
  cases hlen : s.prog.length with
  | zero => simp [List.eq_nil_of_length_eq_zero hlen] at hop
  | succ k =>
    rw [hlen, endsQuietly, hop] at h
    obtain ⟨p, hp, -⟩ := (Option.any_eq_true _ _).1 h
    exact ⟨p, hp⟩

/-- Past the end of its program the bus master's turn is idle (R146). -/
theorem step_busMaster_over (hf : s.fault = none) (he : s.nextEvent = .busMaster) (hover : programOver s = true) :
    step s = .next s.tookEvent := by
  rw [programOver_eq_true] at hover
  rw [step, unlessFaulted_of_none hf, he, runEvent, busStep, State.tookEvent_prog, State.tookEvent_pos, hover]

/-- The bus master's turn at a control form (R146). -/
theorem step_busMaster_control (hf : s.fault = none) (he : s.nextEvent = .busMaster) (hop : s.prog[s.pos]? = some op)
    (hc : op.command s = none) : step s = .next (op.control s.tookEvent) := by
  rw [step, unlessFaulted_of_none hf, he, runEvent, busStep, State.tookEvent_prog, State.tookEvent_pos, hop]
  simp only [BusOp.run, command_tookEvent, hc]

/-- Where nothing is left to do for either agent, a turn only uses up its event (R118, R153 (b)). -/
theorem step_of_idle (hf : s.fault = none) (he : s.nextEvent ≠ .reset) (hover : programOver s = true)
    (hidle : s.engineOn = false ∨ s.tdr = none ∧ s.tsr = none) : step s = .next s.tookEvent := by
  cases hev : s.nextEvent with
  | busMaster => exact step_busMaster_over hf hev hover
  | engine => exact step_engine_idle hf hev hidle
  | reset => exact absurd hev he

/-- In a final state a turn only uses up its event, or is the bus master's at a control form (R118 (c)). -/
theorem step_final (h : final s = true) (he : s.nextEvent ≠ .reset) :
    step s = .next s.tookEvent ∨ ∃ op, s.prog[s.pos]? = some op ∧ step s = .next (op.control s.tookEvent) := by
  obtain ⟨hissued, htdr, htsr, hf⟩ := final_eq_true.1 h
  cases hop : s.prog[s.pos]? with
  | none => exact .inl (step_of_idle hf he (programOver_eq_true.2 hop) (.inr ⟨htdr, htsr⟩))
  | some op =>
    cases hev : s.nextEvent with
    | busMaster =>
      exact .inr ⟨op, rfl, step_busMaster_control hf hev hop (command_none.2 (leave_of_issuedLast hissued hop))⟩
    | engine => exact .inl (step_engine_idle hf hev (.inr ⟨htdr, htsr⟩))
    | reset => exact absurd hev he

theorem issuedLast_tookEvent (s : State) : issuedLast s.tookEvent = issuedLast s := by simp [issuedLast]

/-- A control form on a quiet way to the end leaves the bus master on one (R118 (c)). -/
theorem issuedLast_control (h : issuedLast s = true) (hop : s.prog[s.pos]? = some op) :
    issuedLast (op.control s) = true := by
  obtain ⟨p, hp, heq | heq⟩ | ⟨-, heq⟩ := control_cases op s <;> rw [heq]
  · exact h
  · exact endsQuietly_leave h hop hp
  · exact h

/-- A control form moves the bus master and counts its iterations, and leaves what else it holds (R146). -/
theorem control_keeps_master (op : BusOp) (s : State) :
    (op.control s).rdata = s.rdata ∧ (op.control s).t0 = s.t0 ∧ (op.control s).t1 = s.t1 ∧
    (op.control s).draws = s.draws ∧ (op.control s).prog = s.prog := by
  obtain ⟨p, -, heq | heq⟩ | ⟨-, heq⟩ := control_cases op s <;> rw [heq]
  all_goals exact ⟨rfl, rfl, rfl, rfl, rfl⟩

/-- Beside the bus master's position, what makes a state final is its block (R118 (c)). -/
theorem final_of_sameBlock {t : State} (hsame : SameBlock t s) (h : final s = true) (hissued : issuedLast t = true) :
    final t = true := by
  obtain ⟨-, -, -, -, -, htdr, htsr, -, hfault⟩ := hsame
  obtain ⟨-, hs⟩ := final_eq_true.1 h
  rw [final_eq_true, htdr, htsr, hfault]
  exact ⟨hissued, hs⟩

/-- A control form of a final state leaves a final state. -/
theorem final_control (h : final s = true) (hop : s.prog[s.pos]? = some op) : final (op.control s) = true := by
  obtain ⟨hissued, -⟩ := final_eq_true.1 h
  exact final_of_sameBlock (SameBlock_control op s) h (issuedLast_control hissued hop)

theorem final_tookEvent (h : final s = true) : final s.tookEvent = true := by
  obtain ⟨hissued, -⟩ := final_eq_true.1 h
  exact final_of_sameBlock (SameBlock_tookEvent s) h ((issuedLast_tookEvent s).trans hissued)

/-- Where the bus master has finished, a final state has an empty engine, and a stuck one a frozen one (R153 (b)). -/
theorem idle_of_ended (h : (final s = true ∧ programOver s = true) ∨ stuck s = true) :
    s.fault = none ∧ programOver s = true ∧ (s.engineOn = false ∨ s.tdr = none ∧ s.tsr = none) := by
  obtain ⟨hfinal, hover⟩ | hstuck := h
  · obtain ⟨-, htdr, htsr, hf⟩ := final_eq_true.1 hfinal
    exact ⟨hf, hover, .inr ⟨htdr, htsr⟩⟩
  · simp only [stuck, Bool.and_eq_true, Bool.not_eq_true', Option.isNone_iff_eq_none] at hstuck
    obtain ⟨⟨⟨hover, -⟩, huart⟩, hf⟩ := hstuck
    exact ⟨hf, hover, .inl (engineOn_eq_false.2 (.inl huart))⟩

end Final

/-- Settles O52: the step by `step_final` and `step_of_idle`, and a quiet way to the end begins past the end or with a
control form. -/
theorem finalAndStuckStatesStay : Obligations.FinalAndStuckStatesStay := by
  refine ⟨fun s h he => ?_, fun s h he => ?_, fun s op h hop => ?_, fun s hover hbusy hf => ?_⟩
  · have hfinal := final_tookEvent h
    obtain hstep | ⟨op, hop, hstep⟩ := step_final h he
    · exact ⟨_, hstep, hfinal, SameBlock_tookEvent s, by simp⟩
    · obtain ⟨hrdata, ht0, ht1, hdraws, hprog⟩ := control_keeps_master op s.tookEvent
      refine ⟨_, hstep, final_control hfinal (by simpa using hop), ?_, by simpa using hrdata, by simpa using ht0,
        by simpa using ht1, by simpa using hdraws, by simpa using hprog⟩
      simpa [SameBlock] using SameBlock_control op s.tookEvent
  · obtain ⟨hf, hover, hidle⟩ := idle_of_ended h
    exact step_of_idle hf he hover hidle
  · obtain ⟨hissued, -⟩ := final_eq_true.1 h
    exact command_none.2 (leave_of_issuedLast hissued hop)
  · rw [final, issuedLast_of_programOver hover, hbusy, hf]
    rfl

/-! ### R116, R117: the frame and the line -/

section Line

variable {f : Frame} {l : Line} {b : Bool} {k j n : Nat}

theorem frameBits_eq (c : Byte) : frameBits c = [false, c.getLsbD 0, c.getLsbD 1, c.getLsbD 2, c.getLsbD 3,
    c.getLsbD 4, c.getLsbD 5, c.getLsbD 6, c.getLsbD 7, true] := rfl

theorem frameBits_length (c : Byte) : (frameBits c).length = 10 := by rw [frameBits_eq]; rfl

/-- Bit `k` of a frame: the start bit, then the data bits in their order, then the stop bit (R116). -/
theorem frameBits_getElem? (c : Byte) (hk : k < 10) :
    (frameBits c)[k]? = some (if k = 0 then false else if k = 9 then true else c.getLsbD (k - 1)) := by
  rw [frameBits_eq]
  interval_cases k <;> rfl

/-- The clock periods of a frame's bit `k` are the `k`-th stretch of as many as its divisor says (R117). -/
theorem levelAt_line (hk : k < 10) (hj : j < f.brr.toNat) :
    f.line.levelAt (k * f.brr.toNat + j) = (frameBits f.data)[k]? := by
  have hwithin : k * f.brr.toNat + j < 10 * f.brr.toNat := calc
    k * f.brr.toNat + j < (k + 1) * f.brr.toNat := by rw [Nat.succ_mul]; exact Nat.add_lt_add_left hj _
    _ ≤ 10 * f.brr.toNat := Nat.mul_le_mul_right _ hk
  have hperiod : (k * f.brr.toNat + j) / f.brr.toNat = k := by
    rw [Nat.mul_comm, Nat.mul_add_div (by omega), Nat.div_eq_of_lt hj, Nat.add_zero]
  rw [Frame.line, Line.levelAt, frameBits_length, bitPeriod, if_pos hwithin, hperiod]

/-- A pin that shows a line has the line's level, where the line has one (R85). -/
theorem pinLevelAt_of_level {shown : Option Line} (o : Nat) (hshown : shown = some l) (hl : l.levelAt n = some b) :
    pinLevelAt o shown n = b := by
  rw [pinLevelAt, hshown, Option.bind_some, hl, Option.getD_some]

end Line

/-- Settles O53: the bits of the frame are read off its list, and there are ten of them. -/
theorem frameIsEightNOne : Obligations.FrameIsEightNOne :=
  ⟨frameBits_eq, fun b brr => by rw [frameBits_length, frameTime]⟩

/-- Settles O56: the line by `levelAt_line`, and the pin by what it shows, the line or nothing. -/
theorem lineCarriesFrame : Obligations.LineCarriesFrame := by
  obtain ⟨-, hvisible, hhidden⟩ := pinShowsLineWhenVisible
  refine ⟨fun s n htsr => ?_, fun s f k j htsr hk hj => ?_, fun o s n b hv => pinLevelAt_of_level o (hvisible s hv),
    fun o s n hv => ?_, fun o f n b hok => pinLevelAt_of_level o (if_pos hok), fun o f n hok => ?_⟩
  · rw [State.line, htsr]
    rfl
  · rw [State.line, htsr]
    exact (levelAt_line hk hj).trans (frameBits_getElem? f.data hk)
  · rw [State.txLevelAt, hhidden s hv]
    rfl
  · rw [Frame.levelAt, Frame.shown, hok]
    rfl

end Sys2Proof.Proofs

/-! The serial driver's family (spec/44_serial_driver_ops.md): first SEND_BYTE, by what the bus master's turn does at
each of its positions, then the divisor arithmetic, and last UART_SETUP on the bus master's own turns. -/

namespace Sys2Proof.Proofs

open Sys2Proof Sys2Proof.Machine Sys2Proof.Safety

/-! ### R130: the bus master's turn at each position of SEND_BYTE -/

section SendByteTurns

variable {s t : State} {c : Byte}

/-- What SEND_BYTE's read of SR leaves: the value read in RDATA and in t0, and the branch next (R90, R130). -/
def polled (s : State) : State :=
  let v := srValue (Config.srOther s.draws) s.txe
  (((s.setRdata v).nextDraw).setTemp .t0 v).goto 1

/-- Where SEND_BYTE's branch goes: on to the write, or back to the read (R130). -/
def branched (s : State) : State := s.goto (if s.t0.getLsbD Config.txeBit then 2 else 0)

/-- What SEND_BYTE's write of DR leaves once its checks have passed: the byte in TDR and the program over (R92, R130). -/
def sent (c : Byte) (s : State) : State := (s.setTdr (some c)).goto 3

theorem drByte_setWidth (c : Byte) : drByte (c.setWidth 32) = c := by
  apply BitVec.eq_of_toNat_eq
  simp only [drByte, BitVec.extractLsb'_toNat, BitVec.toNat_setWidth]
  omega

/-- A byte reaches no reserved bit of DR (R55). -/
theorem drReserved_setWidth (c : Byte) : drReserved (c.setWidth 32) = false := by
  have hlt : (c.setWidth 32).toNat < 2 ^ 8 := by
    rw [BitVec.toNat_setWidth]
    omega
  have hzero : (c.setWidth 32).extractLsb' 8 24 = 0 := by
    apply BitVec.eq_of_toNat_eq
    rw [BitVec.extractLsb'_toNat, Nat.shiftRight_eq_div_pow, Nat.div_eq_of_lt hlt]
    rfl
  simp [drReserved, hzero]

theorem busStep_polled (hf : s.fault = none) (hprog : s.prog = sendByteOps c) (hpos : s.pos = 0)
    (hen : s.uartEn = true) : busStep s = .next (polled s) := by
  have hop : s.prog[s.pos]? = some (.rd .t0 .sr) := by rw [hprog, hpos]; rfl
  rw [busStep_rd hop (exec_srRd hf hen) hf, polled, State.nextDraw_pos, State.setRdata_pos, hpos]
  rfl

theorem busStep_poll_gated (hf : s.fault = none) (hprog : s.prog = sendByteOps c) (hpos : s.pos = 0)
    (hoff : s.uartEn = false) : busStep s = .next (s.setFault .gatedAccess) := by
  have hexec : exec .srRd s = .next (s.setFault .gatedAccess) := gated_of_off hf hoff _
  simp only [busStep, hprog, hpos, sendByteOps, List.getElem?_cons_zero, BusOp.run, BusOp.command,
    transaction_readCommand, registerOp, hexec, complete_setFault]

theorem busStep_branched (hprog : s.prog = sendByteOps c) (hpos : s.pos = 1) : busStep s = .next (branched s) := by
  rw [busStep, hprog, hpos]
  show Host.Outcome.next ((BusOp.backUnlessTxe 1).control s) = _
  rw [control_backUnlessTxe, hpos]
  rfl

theorem busStep_write (hprog : s.prog = sendByteOps c) (hpos : s.pos = 2) :
    busStep s = (BusOp.wr .dr (.lit (c.setWidth 32))).complete (exec (.drWr (c.setWidth 32)) s) := by
  rw [busStep, hprog, hpos]
  show BusOp.complete _ (transaction (writeCommand .dr (c.setWidth 32)) s) = _
  rw [transaction_writeCommand]
  rfl

theorem busStep_over (hprog : s.prog = sendByteOps c) (hpos : 3 ≤ s.pos) : busStep s = .next s := by
  have hop : s.prog[s.pos]? = none := by
    rw [hprog]
    exact List.getElem?_eq_none hpos
  rw [busStep, hop]

/-- A write of DR that finds TDR empty passes the check of TXE (R92). -/
theorem exec_drWr_fault_ne_notReady {w : Word} (htdr : s.tdr = none) (h : exec (.drWr w) s = .next t) :
    t.fault ≠ some .dataWriteNotReady := by
  obtain ⟨hf, -⟩ := exec_next h
  have hready : (!s.txe) = false := by rw [txe_eq_true.2 htdr]; rfl
  refine check_fault_ne ((unlessFaulted_of_none hf _).symm.trans h) (by decide) fun h =>
    check_fault_ne h (by decide) fun h => check_fault_ne h (by decide) fun h =>
    check_fault_ne ((check_of_false hready _ _).symm.trans h) (by decide) fun h => ?_
  cases h
  simp [hf]

/-- An accepted write of DR, all its checks passed (R92). -/
theorem exec_drWr {w : Word} (hf : s.fault = none) (hon : s.engineOn = true) (hres : drReserved w = false)
    (htdr : s.tdr = none) (hbrr : Config.brrMin ≤ s.brr.toNat) :
    exec (.drWr w) s = .next (s.setTdr (some (drByte w))) := by
  obtain ⟨hen, hue, hte⟩ := engineOn_eq_true.1 hon
  rw [exec, execDrWr, gated_of_on hf hen, check_of_false hres, check_of_false (by simp [hue, hte]),
    check_of_false (by simp [txe_eq_true.2 htdr]), check_of_false (by simpa using hbrr)]

theorem busStep_sent (hf : s.fault = none) (hprog : s.prog = sendByteOps c) (hpos : s.pos = 2)
    (hon : s.engineOn = true) (htdr : s.tdr = none) (hbrr : Config.brrMin ≤ s.brr.toNat) :
    busStep s = .next (sent c s) := by
  rw [busStep_write hprog hpos, exec_drWr hf hon (drReserved_setWidth c) htdr hbrr, drByte_setWidth, complete_of_next,
    State.setTdr_fault, if_pos hf, State.setTdr_pos, hpos]
  rfl

/-- All that SEND_BYTE's write of DR can leave where TDR is empty: the byte in TDR, or a reason recorded that is not
DataWriteNotReady (R130). -/
theorem busStep_write_next (hprog : s.prog = sendByteOps c) (hpos : s.pos = 2) (htdr : s.tdr = none)
    (h : busStep s = .next t) : t = sent c s ∨ ∃ r, r ≠ .dataWriteNotReady ∧ t = s.setFault r := by
  rw [busStep_write hprog hpos] at h
  obtain ⟨x, hexec, ht⟩ := complete_next h
  have hready := exec_drWr_fault_ne_notReady htdr hexec
  obtain ⟨hf, ⟨r, rfl⟩ | ⟨-, -, -, -, -, -, rfl⟩⟩ := exec_next hexec
  · obtain ⟨-, rfl⟩ | ⟨hnone, -⟩ := ht
    · exact .inr ⟨r, fun hr => hready (congrArg some hr), rfl⟩
    · simp at hnone
  · obtain ⟨hsome, -⟩ | ⟨-, rfl⟩ := ht
    · simp [hf] at hsome
    · refine .inl ?_
      rw [drByte_setWidth, State.setTdr_pos, hpos]
      rfl

end SendByteTurns

/-! ### R131: TXE seen as 1 is still 1 when SEND_BYTE writes -/

section SendByteReady

variable {s t : State} {c : Byte}

theorem SendByteReady_load (c : Byte) (s : State) : SendByteReady c (s.load (sendByteOps c)) := by
  simp [SendByteReady]

theorem SendByteReady_tookEvent (hready : SendByteReady c s) : SendByteReady c s.tookEvent := by
  simpa [SendByteReady] using hready

/-- The bit TXE in t0 is the flag that the read saw (R90). -/
theorem SendByteReady_polled (hprog : s.prog = sendByteOps c) : SendByteReady c (polled s) := by
  have hseen : s.txe = true → s.tdr = none := txe_eq_true.1
  simpa [SendByteReady, polled, hprog] using hseen

/-- The branch goes on to the write only with TXE seen as 1 (R130). -/
theorem SendByteReady_branched (hready : SendByteReady c s) (hpos : s.pos = 1) : SendByteReady c (branched s) := by
  obtain ⟨hprog, hseen, -⟩ := hready
  cases hbit : s.t0.getLsbD Config.txeBit with
  | true => simpa [SendByteReady, branched, hbit, hprog] using hseen hpos hbit
  | false => simpa [SendByteReady, branched, hbit] using hprog

/-- The bus master's turn, position by position (R130). -/
theorem busStep_keeps_sendByteReady (hf : s.fault = none) (hready : SendByteReady c s) (h : busStep s = .next t) :
    SendByteReady c t ∧ t.fault ≠ some .dataWriteNotReady := by
  obtain ⟨hprog, hseen, hwrite⟩ := id hready
  match hpos : s.pos with
  | 0 =>
    cases hen : s.uartEn with
    | true =>
      obtain rfl := Host.Outcome.next.inj ((busStep_polled hf hprog hpos hen).symm.trans h)
      exact ⟨SendByteReady_polled hprog, by simp [polled, hf]⟩
    | false =>
      obtain rfl := Host.Outcome.next.inj ((busStep_poll_gated hf hprog hpos hen).symm.trans h)
      exact ⟨hready, by simp⟩
  | 1 =>
    obtain rfl := Host.Outcome.next.inj ((busStep_branched hprog hpos).symm.trans h)
    exact ⟨SendByteReady_branched hready hpos, by simp [branched, hf]⟩
  | 2 =>
    obtain ⟨-, htdr⟩ := hwrite hpos
    obtain rfl | ⟨r, hr, rfl⟩ := busStep_write_next hprog hpos htdr h
    · exact ⟨by simpa [SendByteReady, sent] using hprog, by simp [sent, hf]⟩
    · exact ⟨hready, by simpa using hr⟩
  | n + 3 =>
    obtain rfl := Host.Outcome.next.inj ((busStep_over hprog (by omega)).symm.trans h)
    exact ⟨hready, by simp [hf]⟩

/-- The engine can empty TDR and does not fill it, and it touches nothing of the bus master (R112, R130). -/
theorem engineStep_keeps_sendByteReady (hready : SendByteReady c s) : SendByteReady c s.engineStep := by
  obtain ⟨⟨hprog, hpos, ht0, -⟩, -⟩ := engineStep_keeps_master s
  have hempty (htdr : s.tdr = none) : s.engineStep.tdr = none := (engineStep_tdr s).elim (·.trans htdr) id
  rw [SendByteReady, hprog, hpos, ht0]
  obtain ⟨hprogs, hseen, hwrite⟩ := hready
  exact ⟨hprogs, fun hp hbit => hempty (hseen hp hbit), fun hp => (hwrite hp).imp_right hempty⟩

/-- A reset starts SEND_BYTE again from its read (R170). -/
theorem environmentReset_sendByteReady (hprog : s.prog = sendByteOps c) : SendByteReady c s.environmentReset := by
  simpa [SendByteReady, State.environmentReset] using hprog

/-- Every step of any agent keeps it, and records no DataWriteNotReady. -/
theorem step_keeps_sendByteReady (hready : SendByteReady c s) (h : step s = .next t) :
    SendByteReady c t ∧ t.fault ≠ some .dataWriteNotReady := by
  have htook := SendByteReady_tookEvent hready
  obtain ⟨hf, ⟨-, hbus⟩ | ⟨-, rfl⟩ | ⟨-, rfl⟩⟩ := step_next h
  · exact busStep_keeps_sendByteReady (by simpa using hf) htook hbus
  · obtain ⟨-, -, -, -, -, hfault⟩ := SameRegisters_engineStep s.tookEvent
    exact ⟨engineStep_keeps_sendByteReady htook, by simp [hfault, hf]⟩
  · obtain ⟨hprog, -⟩ := htook
    exact ⟨environmentReset_sendByteReady hprog, by simp [hf]⟩

end SendByteReady

/-- Settles O55, agent by agent. -/
theorem sendByteReadyKept : Obligations.SendByteReadyKept :=
  ⟨fun _ _ _ => step_keeps_sendByteReady, SendByteReady_load⟩

/-! ### R131: SEND_BYTE with TXE never 1 -/

section Polling

variable {s t u : State} {c : Byte}

/-- An invariant of the steps is one of the runs. -/
theorem runSteps_keeps {P : State → Prop} (hstep : ∀ s t, P s → step s = .next t → P t) {k : Nat}
    (h : runSteps k s = .next t) (hs : P s) : P t := by
  induction k generalizing s with
  | zero =>
    obtain rfl := Host.Outcome.next.inj h
    exact hs
  | succ k ih =>
    rw [runSteps] at h
    split at h
    next u hu => exact ih h (hstep s u hs hu)
    next => cases h
    next => cases h

theorem SameBlock_trans (h : SameBlock s t) (h' : SameBlock t u) : SameBlock s u := by
  obtain ⟨hclk, hpin, hbrr, hue, hte, htdr, htsr, hlog, hfault⟩ := h
  rwa [SameBlock, hclk, hpin, hbrr, hue, hte, htdr, htsr, hlog, hfault]

theorem SameBlock_polled (s : State) : SameBlock (polled s) s := by simp [SameBlock, polled]

theorem SameBlock_branched (s : State) : SameBlock (branched s) s := by simp [SameBlock, branched]

/-- SEND_BYTE is in its poll loop, with no TXE seen as 1. -/
def Polling (c : Byte) (s : State) : Prop :=
  s.prog = sendByteOps c ∧ (s.pos = 0 ∨ s.pos = 1 ∧ s.t0.getLsbD Config.txeBit = false)

/-- While TDR is occupied the bus master's turn stays in the poll loop (R131). -/
theorem busStep_polling (hf : s.fault = none) (hen : s.uartEn = true) (htdr : s.tdr ≠ none) (hpoll : Polling c s) :
    ∃ t, busStep s = .next t ∧ Polling c t ∧ SameBlock t s := by
  obtain ⟨hprog, hpos | ⟨hpos, hbit⟩⟩ := hpoll
  · have htxe : s.txe = false := by simpa [← txe_eq_true] using htdr
    exact ⟨_, busStep_polled hf hprog hpos hen, by simp [Polling, polled, hprog, htxe], SameBlock_polled s⟩
  · exact ⟨_, busStep_branched hprog hpos, by simp [Polling, branched, hprog, hbit], SameBlock_branched s⟩

/-- With TDR occupied and the engine never scheduled, SEND_BYTE polls for ever (R131). -/
theorem run_polling (k : Nat) (hf : s.fault = none) (hen : s.uartEn = true) (htdr : s.tdr ≠ none)
    (hpoll : Polling c s) :
    ∃ t, runUnder (fun _ => .busMaster) k s = .next t ∧ Polling c t ∧ SameBlock t s := by
  induction k generalizing s with
  | zero => exact ⟨_, runUnder_zero _ s, hpoll, SameBlock_refl s⟩
  | succ k ih =>
    obtain ⟨t, hturn, hpollt, hsame⟩ :=
      busStep_polling (s := { s with events := (List.range k).map fun _ => .busMaster }) hf hen htdr hpoll
    have hent := (uartEn_congr hsame).trans hen
    obtain ⟨-, -, -, -, -, htdrt, -, -, hfault⟩ := id hsame
    obtain ⟨u, hrun, hpollu, hsameu⟩ := ih (hfault.trans hf) hent (by rwa [htdrt]) hpollt
    exact ⟨u, (runUnder_busMaster_succ k hf hturn).trans hrun, hpollu, SameBlock_trans hsameu hsame⟩

end Polling

/-- Settles O49: the first part is the invariant of O55 along the run, the second is `run_polling`. -/
theorem sendByteWritesOnlyWhenReady : Obligations.SendByteWritesOnlyWhenReady := by
  refine ⟨fun schedule k s t c hf h => ?_, fun k s b c hf hen htdr => ?_⟩
  · obtain ⟨⟨-, -, hwrite⟩, hfault⟩ := runSteps_keeps
      (P := fun s => SendByteReady c s ∧ s.fault ≠ some .dataWriteNotReady)
      (fun _ _ ⟨hready, _⟩ => step_keeps_sendByteReady hready) h ⟨SendByteReady_load c s, by simp [hf]⟩
    exact ⟨hwrite, hfault⟩
  · obtain ⟨t, hrun, ⟨-, hpos⟩, hsame⟩ :=
      run_polling (s := s.load (sendByteOps c)) k hf hen (by simp [htdr]) ⟨rfl, .inl rfl⟩
    exact ⟨t, hrun, by omega, hsame⟩

/-! ### R130: under TX_FAIR SEND_BYTE ends -/

section Fairness

variable {s t u : State} {c : Byte} {e : Event} {schedule : Nat → Event}

/-- SEND_BYTE is before its write, and its write will be accepted once TDR is empty (R130). -/
structure Sending (c : Byte) (s : State) : Prop where
  fault : s.fault = none
  on    : s.engineOn = true
  timed : Config.brrMin ≤ s.brr.toNat
  ready : SendByteReady c s
  pos   : s.pos ≤ 2

/-- The bus master's turns that SEND_BYTE still needs while TDR is empty: one on from the write, two from the branch
with TXE seen as 1, three from the read, four from the branch that goes back to it. -/
def pollTurns (s : State) : Nat :=
  match s.pos with
  | 0 => 3
  | 1 => if s.t0.getLsbD Config.txeBit then 2 else 4
  | _ => 1

/-- The turns that SEND_BYTE still needs of the agent it waits for: with TDR occupied the engine's turns come first. -/
def turnsLeft (s : State) : Nat := if s.txe then pollTurns s else 4 + turnsToDrain s

/-- The agent that SEND_BYTE waits for (R115, R130). -/
def awaited (s : State) : Event := if s.txe then .busMaster else .engine

theorem pollTurns_le_four (s : State) : pollTurns s ≤ 4 := by
  unfold pollTurns
  split
  · decide
  · split <;> decide
  · decide

/-- An event takes a state to another, whatever events are still to come. -/
def Turn (e : Event) (s u : State) : Prop :=
  ∀ es, runEvent e { s with events := es } = .next { u with events := es }

/-- SEND_BYTE's run under the schedule comes to its end with its byte behind all earlier ones (R130). -/
def Ends (c : Byte) (schedule : Nat → Event) (s : State) : Prop :=
  ∃ k t, runUnder schedule k s = .next t ∧ t.pos = 3 ∧ t.fault = none ∧ byteOrder t = byteOrder s ++ [c]

/-- What a turn makes of SEND_BYTE before its write: the write is done, or the turns left become fewer, or the turn was
not of the agent it waits for and there is as much left as before. -/
def Advances (c : Byte) (e : Event) (s u : State) : Prop :=
  (u.pos = 3 ∧ u.fault = none ∧ byteOrder u = byteOrder s ++ [c]) ∨
  (Sending c u ∧ byteOrder u = byteOrder s ∧
    (turnsLeft u < turnsLeft s ∨ (e ≠ awaited s ∧ turnsLeft u = turnsLeft s ∧ awaited u = awaited s)))

theorem runUnder_turn (k : Nat) (hturn : Turn (schedule 0) s u) (hf : s.fault = none) :
    runUnder schedule (k + 1) s = runUnder (fun n => schedule (n + 1)) k u := by
  rw [runUnder_succ schedule k hf, hturn]
  rfl

/-- The engine does not look at the schedule (R112). -/
theorem engineStep_with_events (s : State) (es : List Event) :
    State.engineStep { s with events := es } = { s.engineStep with events := es } := by
  cases hon : s.engineOn with
  | false => rw [engineStep_of_off hon, engineStep_of_off (s := { s with events := es }) hon]
  | true =>
    obtain htsr | ⟨f, htsr⟩ := Option.eq_none_or_eq_some s.tsr
    · obtain htdr | ⟨b, htdr⟩ := Option.eq_none_or_eq_some s.tdr
      · rw [engineStep_of_empty htdr htsr, engineStep_of_empty (s := { s with events := es }) htdr htsr]
      · rw [engineStep_of_txLoad (txLoad_of_waiting hon htdr htsr),
          engineStep_of_txLoad (txLoad_of_waiting (s := { s with events := es }) hon htdr htsr)]
        rfl
    · rw [engineStep_of_txDone (txDone_of_sending hon htsr),
        engineStep_of_txDone (txDone_of_sending (s := { s with events := es }) hon htsr)]
      rfl

theorem Turn_engine (s : State) : Turn .engine s s.engineStep :=
  fun es => congrArg Host.Outcome.next (engineStep_with_events s es)

/-- The engine's turn empties TDR at last, and after that has no part in SEND_BYTE (R110, R111). -/
theorem engineStep_advances (hs : Sending c s) : Advances c .engine s s.engineStep := by
  obtain ⟨-, -, hbrr, -, -, hfault⟩ := SameRegisters_engineStep s
  obtain ⟨⟨-, hpos, ht0, -⟩, -⟩ := engineStep_keeps_master s
  have hsending : Sending c s.engineStep :=
    ⟨hfault.trans hs.fault, (engineOn_engineStep s).trans hs.on, hbrr ▸ hs.timed,
      engineStep_keeps_sendByteReady hs.ready, hpos ▸ hs.pos⟩
  refine .inr ⟨hsending, byteOrder_engineStep s, ?_⟩
  cases htdr : s.tdr with
  | none =>
    have htxe : s.txe = true := txe_eq_true.2 htdr
    have htxe' : s.engineStep.txe = true := txe_eq_true.2 ((engineStep_tdr s).elim (·.trans htdr) id)
    exact .inr (by simp [awaited, turnsLeft, pollTurns, htxe, htxe', hpos, ht0])
  | some b =>
    have htxe : s.txe = false := by simp [State.txe, htdr]
    have hdrain := turnsToDrain_engineStep hs.on
    have htwo : 2 ≤ turnsToDrain s := by simp [turnsToDrain, htdr]
    have hpoll := pollTurns_le_four s.engineStep
    refine .inl ?_
    rw [turnsLeft, turnsLeft, htxe, if_neg Bool.false_ne_true]
    split <;> omega

theorem turnsToDrain_of_sameBlock (hsame : SameBlock u s) : turnsToDrain u = turnsToDrain s := by
  obtain ⟨-, -, -, -, -, htdr, htsr, -⟩ := hsame
  rw [turnsToDrain, turnsToDrain, htdr, htsr]

theorem Sending_of_sameBlock (hs : Sending c s) (hsame : SameBlock u s) (hready : SendByteReady c u)
    (hle : u.pos ≤ 2) : Sending c u := by
  obtain ⟨hclk, -, hbrr, hue, hte, -, -, -, hfault⟩ := hsame
  refine ⟨hfault.trans hs.fault, ?_, hbrr ▸ hs.timed, hready, hle⟩
  rw [State.engineOn, State.uartEn, hclk, hue, hte]
  exact hs.on

/-- A turn of the bus master that leaves the block alone is one step on where TDR is empty, and of no use elsewhere. -/
theorem advances_of_sameBlock (hs : Sending c u) (hsame : SameBlock u s)
    (hpoll : s.tdr = none → pollTurns u < pollTurns s) : Advances c .busMaster s u := by
  refine .inr ⟨hs, byteOrder_of_sameBlock hsame, ?_⟩
  have hdrain := turnsToDrain_of_sameBlock hsame
  obtain ⟨-, -, -, -, -, htdr, -⟩ := hsame
  have htxe : u.txe = s.txe := by rw [State.txe, State.txe, htdr]
  cases hready : s.txe with
  | true => exact .inl (by simpa [turnsLeft, htxe, hready] using hpoll (txe_eq_true.1 hready))
  | false => exact .inr (by simp [awaited, turnsLeft, htxe, hready, hdrain])

/-- The bus master's turn before the write of SEND_BYTE: the read, the branch or the write (R130). -/
theorem busStep_advances (hs : Sending c s) : ∃ u, Turn .busMaster s u ∧ Advances c .busMaster s u := by
  obtain ⟨hf, hon, hbrr, hready, hle⟩ := id hs
  obtain ⟨hprog, hseen, hwrite⟩ := id hready
  match hpos : s.pos with
  | 0 =>
    obtain ⟨hen, -⟩ := engineOn_eq_true.1 hon
    refine ⟨polled s, fun es => busStep_polled (s := { s with events := es }) hf hprog hpos hen, ?_⟩
    have hsending := Sending_of_sameBlock hs (SameBlock_polled s) (SendByteReady_polled hprog) (Nat.le_succ 1)
    refine advances_of_sameBlock hsending (SameBlock_polled s) fun htdr => ?_
    simp [pollTurns, hpos, polled, txe_eq_true.2 htdr]
  | 1 =>
    refine ⟨branched s, fun es => busStep_branched (s := { s with events := es }) hprog hpos, ?_⟩
    have hsending := Sending_of_sameBlock hs (SameBlock_branched s) (SendByteReady_branched hready hpos)
      (by rw [branched, State.goto_pos]; split <;> decide)
    refine advances_of_sameBlock hsending (SameBlock_branched s) fun htdr => ?_
    cases hbit : s.t0.getLsbD Config.txeBit <;> simp [pollTurns, hpos, branched, hbit]
  | 2 =>
    obtain ⟨-, htdr⟩ := hwrite hpos
    refine ⟨sent c s, fun es => busStep_sent (s := { s with events := es }) hf hprog hpos hon htdr hbrr,
      .inl ⟨rfl, ?_⟩⟩
    simp [byteOrder, sent, htdr, hf]
  | n + 3 => omega

/-- A turn of either agent advances SEND_BYTE (R130). -/
theorem exists_turn_advances (hs : Sending c s) (he : e ≠ .reset) : ∃ u, Turn e s u ∧ Advances c e s u := by
  cases e with
  | busMaster => exact busStep_advances hs
  | engine => exact ⟨_, Turn_engine s, engineStep_advances hs⟩
  | reset => exact absurd rfl he

theorem Ends_of_turn (hf : s.fault = none) (hturn : Turn (schedule 0) s u) (horder : byteOrder u = byteOrder s)
    (hends : Ends c (fun n => schedule (n + 1)) u) : Ends c schedule s := by
  obtain ⟨k, t, hrun, hpos, hft, hbytes⟩ := hends
  exact ⟨k + 1, t, (runUnder_turn k hturn hf).trans hrun, hpos, hft, horder ▸ hbytes⟩

/-- A schedule without reset in which both agents have their turn again and again (R115). -/
structure FairToBoth (schedule : Nat → Event) : Prop where
  engine    : TxFair schedule
  busMaster : Fair .busMaster schedule
  noReset   : ∀ n, schedule n ≠ .reset

theorem Fair_tail (h : Fair e schedule) : Fair e fun n => schedule (n + 1) := by
  intro n
  obtain ⟨m, hm, he⟩ := h (n + 1)
  obtain ⟨m, rfl⟩ : ∃ m', m = m' + 1 := ⟨m - 1, by omega⟩
  exact ⟨m, by omega, he⟩

theorem FairToBoth_tail (h : FairToBoth schedule) : FairToBoth fun n => schedule (n + 1) :=
  ⟨Fair_tail h.engine, Fair_tail h.busMaster, fun n => h.noReset (n + 1)⟩

/-- The agent that SEND_BYTE waits for has its turn some time (R115). -/
theorem exists_awaited (h : FairToBoth schedule) (s : State) : ∃ m, schedule m = awaited s := by
  unfold awaited
  split
  · exact (h.busMaster 0).imp fun _ hm => hm.2
  · exact (h.engine 0).imp fun _ hm => hm.2

/-- By induction on the turns left, and for as many left on how long the awaited agent's turn is still to come. -/
theorem Ends_of_sending {c : Byte} {schedule : Nat → Event} {s : State} {m : Nat} (hfair : FairToBoth schedule)
    (hs : Sending c s) (hm : schedule m = awaited s) : Ends c schedule s := by
  obtain ⟨u, hturn, ⟨hpos, hfu, hbytes⟩ | ⟨hu, horder, hleft⟩⟩ := exists_turn_advances hs (hfair.noReset 0)
  · exact ⟨1, _, (runUnder_turn 0 hturn hs.fault).trans (runUnder_zero _ u), hpos, hfu, hbytes⟩
  · refine Ends_of_turn hs.fault hturn horder ?_
    obtain hless | ⟨hother, hsame, hawaited⟩ := hleft
    · obtain ⟨m', hm'⟩ := exists_awaited (FairToBoth_tail hfair) u
      exact Ends_of_sending (FairToBoth_tail hfair) hu hm'
    · obtain ⟨n, hn⟩ := Nat.exists_eq_succ_of_ne_zero fun h : m = 0 => hother (h ▸ hm)
      exact Ends_of_sending (m := n) (FairToBoth_tail hfair) hu ((hn ▸ hm).trans hawaited.symm)
termination_by (turnsLeft s, m)
decreasing_by
  · exact Prod.Lex.left _ _ hless
  · rw [hsame, hn]
    exact Prod.Lex.right _ n.lt_succ_self

end Fairness

/-- Settles O50: SEND_BYTE, just loaded, is before its write, and `Ends_of_sending` takes it to its end. -/
theorem sendByteEndsUnderFairness : Obligations.SendByteEndsUnderFairness := by
  intro schedule s c hengine hbus hreset hf hon hbrr
  have hfair : FairToBoth schedule := ⟨hengine, hbus, hreset⟩
  obtain ⟨m, hm⟩ := exists_awaited hfair (s.load (sendByteOps c))
  exact Ends_of_sending hfair ⟨hf, hon, hbrr, SendByteReady_load c s, Nat.zero_le 2⟩ hm

/-! ### R125, R126: the divisor arithmetic -/

section Divisors

variable {f b : Nat} {d : Half}

/-- `16 * floor(D)` is an integer, so rounding apart and rounding at once agree (R125). -/
theorem roundedDivisor_eq_raw (f : Nat) (hb : b ≠ 0) : roundedDivisor f b = 16 * rawMantissa f b + rawFraction f b := by
  have hsplit : 2 * f + b = 2 * (f % (16 * b)) + b + 2 * b * (16 * rawMantissa f b) := by
    have hdivision : 16 * b * rawMantissa f b + f % (16 * b) = f := Nat.div_add_mod f (16 * b)
    linarith
  rw [roundedDivisor, hsplit, Nat.add_mul_div_left _ _ (by omega), Nat.add_comm, rawFraction]

/-- The fraction rounds to 16 at most, and then it is carried (R126 (b)). -/
theorem rawFraction_le (f : Nat) (hb : b ≠ 0) : rawFraction f b ≤ 16 := by
  have hrest : f % (16 * b) < 16 * b := Nat.mod_lt _ (by omega)
  exact Nat.lt_succ_iff.1 (Nat.div_lt_of_lt_mul (by omega))

theorem packedDivisor_eq_roundedDivisor (f : Nat) (hb : b ≠ 0) : packedDivisor f b = roundedDivisor f b := by
  have hle := rawFraction_le f hb
  rw [roundedDivisor_eq_raw f hb, packedDivisor]
  split
  next hcarry => rw [Nat.shiftLeft_eq, hcarry]; omega
  next hfits => rw [← Nat.shiftLeft_add_eq_or_of_lt (by omega), Nat.shiftLeft_eq]; omega

/-- `brr_of` is defined exactly in range (R125, R126 (c), (d), (f)). -/
theorem brrOf_eq_some : brrOf f b = some d ↔
    f ≠ 0 ∧ b ≠ 0 ∧ Config.brrMin ≤ roundedDivisor f b ∧ roundedDivisor f b ≤ 0xFFFF ∧
      d.toNat = roundedDivisor f b := by
  unfold brrOf
  split
  next hzero =>
    refine ⟨fun h => (Option.some_ne_none d h.symm).elim, fun ⟨hf, hb, _⟩ => ?_⟩
    exact absurd hzero (not_or.2 ⟨hf, hb⟩)
  next hpos =>
    obtain ⟨hf, hb⟩ := not_or.1 hpos
    split
    next hrange =>
      obtain ⟨hlo, hhi⟩ := hrange
      rw [Option.some_inj, ← BitVec.toNat_inj, BitVec.toNat_ofNat, Nat.mod_eq_of_lt (by omega)]
      exact ⟨fun h => ⟨hf, hb, hlo, hhi, h.symm⟩, fun ⟨_, _, _, _, h⟩ => h.symm⟩
    next hout =>
      refine ⟨fun h => (Option.some_ne_none d h.symm).elim, fun ⟨_, _, hlo, hhi, _⟩ => ?_⟩
      exact absurd ⟨hlo, hhi⟩ hout

/-! The fields of BRR are its value shifted and masked (R19, R125). -/

theorem toNat_brrMant (d : Half) : (brrMant d).toNat = d.toNat >>> 4 := by
  have hlt := d.isLt
  rw [brrMant, BitVec.extractLsb'_toNat, Nat.shiftRight_eq_div_pow]
  omega

theorem toNat_brrFrac (d : Half) : (brrFrac d).toNat = d.toNat &&& 0xF := by
  rw [brrFrac, BitVec.extractLsb'_toNat, Nat.shiftRight_zero]
  exact (Nat.and_two_pow_sub_one_eq_mod d.toNat 4).symm

/-- `f / b` rounded to the nearest integer, a tie going up (R126 (a)). -/
theorem roundedDivisor_bounds (f : Nat) (hb : b ≠ 0) :
    2 * b * roundedDivisor f b ≤ 2 * f + b ∧ 2 * f + b < 2 * b * (roundedDivisor f b + 1) :=
  ⟨Nat.mul_div_le _ _, Nat.lt_mul_div_succ _ (by omega)⟩

/-- Where `brr_of` is not defined UART_SETUP has no program, and so no first transaction (R126, R153 (c)). -/
theorem startDriver_uartSetup_of_none (s : State) (h : brrOf f b = none) :
    s.startDriver (.uartSetup f b) = .refused .divisorUndefined := by
  rw [State.startDriver, DriverOp.expand, h]
  rfl

end Divisors

/-- Settles O43: the two forms by `packedDivisor_eq_roundedDivisor`, the range by `brrOf_eq_some`. -/
theorem divisorFormsAgree : Obligations.DivisorFormsAgree := by
  refine ⟨fun f b => packedDivisor_eq_roundedDivisor f, fun f b d => brrOf_eq_some, fun f b d h => ?_, by decide,
    by decide, by decide⟩
  obtain ⟨-, -, -, -, hd⟩ := brrOf_eq_some.1 h
  rw [← hd]
  exact ⟨toNat_brrMant d, toNat_brrFrac d⟩

/-- Settles O44: the rounding by the bounds of a quotient, the spec's examples by evaluation. -/
theorem divisorCorners : Obligations.DivisorCorners :=
  ⟨fun f b => roundedDivisor_bounds f, by decide, by decide, by decide, by decide, by decide, by decide, by decide,
    by decide, by decide, fun s _ _ => startDriver_uartSetup_of_none s⟩

/-! ### R128: UART_SETUP, on the bus master's own turns -/

section UartSetup

variable {s : State} {d : Half}

/-! What UART_SETUP writes to CR: UE cleared and TE kept, then both set (R97, R128). -/

theorem clearUe_fields (ue te : Bool) : crReserved (crValue ue te &&& ~~~ueMask) = false ∧
    crUe (crValue ue te &&& ~~~ueMask) = false ∧ crTe (crValue ue te &&& ~~~ueMask) = te := by
  revert ue te
  decide

theorem setBoth_fields (ue te : Bool) : crReserved (crValue ue te ||| (teMask ||| ueMask)) = false ∧
    crUe (crValue ue te ||| (teMask ||| ueMask)) = true ∧ crTe (crValue ue te ||| (teMask ||| ueMask)) = true := by
  revert ue te
  decide

/-- A divisor reaches no reserved bit of BRR (R56, R95). -/
theorem toNat_setWidth_lt (d : Half) : (d.setWidth 32).toNat < 2 ^ 16 := by
  rw [BitVec.toNat_setWidth]
  omega

theorem brrField_setWidth (d : Half) : brrField (d.setWidth 32) = d := by
  apply BitVec.eq_of_toNat_eq
  rw [brrField, BitVec.extractLsb'_toNat, BitVec.toNat_setWidth, Nat.shiftRight_zero]
  omega

/-- A write of CR that would clear UE with a byte inside (R97). -/
theorem exec_crWr_of_busy {w : Word} (hf : s.fault = none) (hen : s.uartEn = true) (hres : crReserved w = false)
    (hbusy : s.busy = true) (hue : crUe w = false) :
    exec (.crWr w) s = .next (s.setFault .disableWhileBusy) := by
  rw [exec, execCrWr, gated_of_on hf hen, check_of_false hres, check_of_true (by simp [hbusy, hue])]

/-- What a read of CR leaves: its value in RDATA and in the temporary, and the next operation (R96). -/
def crRead (tmp : Temp) (s : State) : State :=
  ((s.setRdata (crValue s.ue s.te)).setTemp tmp (crValue s.ue s.te)).goto (s.pos + 1)

/-- What a write of CR with these two bits leaves, and the next operation (R97). -/
def crWritten (ue te : Bool) (s : State) : State := (s.setCr ue te).goto (s.pos + 1)

/-- What a write of BRR with this divisor leaves, and the next operation (R95). -/
def brrWritten (d : Half) (s : State) : State := (s.setBrr d).goto (s.pos + 1)

/-- UART_SETUP's preconditions on the block: the serial clock is on and no byte is inside (R128). -/
structure SetupAllowed (s : State) : Prop where
  fault : s.fault = none
  clock : s.uartEn = true
  idle  : s.busy = false

theorem SetupAllowed_of_sameBlock {t : State} (hsame : SameBlock t s) (h : SetupAllowed s) : SetupAllowed t := by
  have hclock := (uartEn_congr hsame).trans h.clock
  obtain ⟨-, -, -, -, -, htdr, htsr, -, hfault⟩ := hsame
  exact ⟨hfault.trans h.fault, hclock, by rw [State.busy, htdr, htsr]; exact h.idle⟩

theorem SameBlock_crRead (tmp : Temp) (s : State) : SameBlock (crRead tmp s) s := by simp [SameBlock, crRead]

theorem SameBlock_setCr {t : State} {ue te : Bool} (hsame : SameBlock t s) :
    SameBlock (t.setCr ue te) (s.setCr ue te) := by
  obtain ⟨hclk, hpin, hbrr, -, -, htdr, htsr, hlog, hfault⟩ := hsame
  exact ⟨hclk, hpin, hbrr, rfl, rfl, htdr, htsr, hlog, hfault⟩

theorem SameBlock_setBrr {t : State} (hsame : SameBlock t s) : SameBlock (t.setBrr d) (s.setBrr d) := by
  obtain ⟨hclk, hpin, -, hue, hte, htdr, htsr, hlog, hfault⟩ := hsame
  exact ⟨hclk, hpin, rfl, hue, hte, htdr, htsr, hlog, hfault⟩

theorem Turn_crRd {tmp : Temp} (hf : s.fault = none) (hen : s.uartEn = true)
    (hop : s.prog[s.pos]? = some (.rd tmp .cr)) : Turn .busMaster s (crRead tmp s) := by
  intro es
  refine (busStep_rd (s := { s with events := es }) hop (exec_crRd hf hen) hf).trans ?_
  cases tmp <;> rfl

theorem Turn_crWr {v : Source} {ue te : Bool} (h : SetupAllowed s) (hop : s.prog[s.pos]? = some (.wr .cr v))
    (hfields : crReserved (v.value s) = false ∧ crUe (v.value s) = ue ∧ crTe (v.value s) = te) :
    Turn .busMaster s (crWritten ue te s) := by
  intro es
  rw [← value_with_events v s es] at hfields
  obtain ⟨hres, rfl, rfl⟩ := hfields
  refine busStep_wr (s := { s with events := es }) hop (exec_crWr h.fault h.clock hres fun hbusy => ?_) h.fault
  exact absurd (h.idle.symm.trans hbusy) Bool.false_ne_true

theorem Turn_brrWr (h : SetupAllowed s) (hue : s.ue = false)
    (hop : s.prog[s.pos]? = some (.wr .brr (.lit (d.setWidth 32)))) : Turn .busMaster s (brrWritten d s) := by
  intro es
  have hexec := exec_brrWr (s := { s with events := es }) h.fault h.clock
    (brrReserved_of_lt (toNat_setWidth_lt d)) hue
  rw [brrField_setWidth] at hexec
  exact busStep_wr (s := { s with events := es }) hop hexec h.fault

theorem Turn_crWr_of_busy {v : Source} (hf : s.fault = none) (hen : s.uartEn = true)
    (hop : s.prog[s.pos]? = some (.wr .cr v)) (hbusy : s.busy = true) (hres : crReserved (v.value s) = false)
    (hue : crUe (v.value s) = false) : Turn .busMaster s (s.setFault .disableWhileBusy) := by
  intro es
  rw [← value_with_events v s es] at hres hue
  have hexec := exec_crWr_of_busy (s := { s with events := es }) hf hen hres hbusy hue
  simp only [runEvent, busStep, hop, BusOp.run, BusOp.command, transaction_writeCommand]
  exact (congrArg _ hexec).trans (complete_setFault _ _ _)

theorem run_busMaster_turn {u : State} (k : Nat) (h : Turn .busMaster s u) (hf : s.fault = none) :
    runUnder (fun _ => .busMaster) (k + 1) s = runUnder (fun _ => .busMaster) k u :=
  runUnder_turn k h hf

/-- The operation that is next in a program, and what is to come after it. -/
theorem getElem?_and_drop_succ {prog rest : List BusOp} {op : BusOp} {n : Nat} (h : prog.drop n = op :: rest) :
    prog[n]? = some op ∧ prog.drop (n + 1) = rest := by
  rw [← Nat.add_zero n, ← List.getElem?_drop, Nat.add_zero, ← List.drop_drop, h]
  exact ⟨rfl, rfl⟩

/-- A read-modify-write of CR that is next in the program: two turns, after which UE and TE are what the write makes of
the value read, and the rest of the program is to come (R96, R97). -/
theorem run_readModifyWrite_cr (k : Nat) {tmp : Temp} {v : Source} {modify : Word → Word} {ue te : Bool}
    {rest : List BusOp} (h : SetupAllowed s) (hv : ∀ u : State, v.value u = modify (u.temp tmp))
    (hprog : s.prog.drop s.pos = .rd tmp .cr :: .wr .cr v :: rest)
    (hfields : crReserved (modify (crValue s.ue s.te)) = false ∧ crUe (modify (crValue s.ue s.te)) = ue ∧
      crTe (modify (crValue s.ue s.te)) = te) :
    ∃ t, runUnder (fun _ => .busMaster) (k + 2) s = runUnder (fun _ => .busMaster) k t ∧ t.prog.drop t.pos = rest ∧
      SameBlock t (s.setCr ue te) := by
  obtain ⟨hread, hnext⟩ := getElem?_and_drop_succ hprog
  obtain ⟨hwrite, hrest⟩ := getElem?_and_drop_succ hnext
  have hmid := SetupAllowed_of_sameBlock (SameBlock_crRead tmp s) h
  have hvalue : v.value (crRead tmp s) = modify (crValue s.ue s.te) := by rw [hv, crRead, temp_goto, temp_setTemp]
  have hturn := Turn_crWr hmid (by simpa [crRead] using hwrite) (hvalue.symm ▸ hfields)
  refine ⟨_, (run_busMaster_turn (k + 1) (Turn_crRd h.fault h.clock hread) h.fault).trans
    (run_busMaster_turn k hturn hmid.fault), ?_, ?_⟩
  · simpa [crWritten, crRead] using hrest
  · simp [SameBlock, crWritten, crRead]

/-- A write of BRR that is next in the program takes one turn (R95). -/
theorem run_brrWr (k : Nat) {rest : List BusOp} (h : SetupAllowed s) (hue : s.ue = false)
    (hprog : s.prog.drop s.pos = .wr .brr (.lit (d.setWidth 32)) :: rest) :
    ∃ t, runUnder (fun _ => .busMaster) (k + 1) s = runUnder (fun _ => .busMaster) k t ∧ t.prog.drop t.pos = rest ∧
      SameBlock t (s.setBrr d) := by
  obtain ⟨hwrite, hrest⟩ := getElem?_and_drop_succ hprog
  refine ⟨_, run_busMaster_turn k (Turn_brrWr h hue hwrite) h.fault, ?_, ?_⟩
  · simpa [brrWritten] using hrest
  · simp [SameBlock, brrWritten]

/-- UART_SETUP without a byte inside: its five turns set UE, TE and BRR and leave the rest of the block (R128). -/
theorem run_uartSetup (d : Half) (h : SetupAllowed s) :
    ∃ t, runUnder (fun _ => .busMaster) 5 (s.load (uartSetupOps d)) = .next t ∧
      SameBlock t ((s.setCr true true).setBrr d) := by
  have hload : SetupAllowed (s.load (uartSetupOps d)) := ⟨h.fault, h.clock, h.idle⟩
  obtain ⟨t, hrun, hrest, hsame⟩ := run_readModifyWrite_cr 3 (modify := (· &&& ~~~ueMask)) hload (fun _ => rfl) rfl
    (clearUe_fields s.ue s.te)
  have ht : SetupAllowed t := SetupAllowed_of_sameBlock hsame ⟨h.fault, h.clock, h.idle⟩
  obtain ⟨-, -, -, huet, -⟩ := id hsame
  obtain ⟨u, hrun', hrest', hsame'⟩ := run_brrWr 2 ht huet hrest
  have hu : SetupAllowed u := SetupAllowed_of_sameBlock hsame' ⟨ht.fault, ht.clock, ht.idle⟩
  obtain ⟨x, hrun'', -, hsame''⟩ := run_readModifyWrite_cr 0 (modify := (· ||| (teMask ||| ueMask))) hu (fun _ => rfl)
    hrest' (setBoth_fields u.ue u.te)
  refine ⟨_, (hrun.trans <| hrun'.trans hrun'').trans (runUnder_zero _ x), ?_⟩
  exact SameBlock_trans hsame'' (SameBlock_setCr (SameBlock_trans hsame' (SameBlock_setBrr hsame)))

/-- With a byte inside UART_SETUP's second transaction is stopped by the last check of R97 (R128). -/
theorem run_uartSetup_of_busy (d : Half) (hf : s.fault = none) (hen : s.uartEn = true) (hbusy : s.busy = true) :
    ∃ t, runUnder (fun _ => .busMaster) 2 (s.load (uartSetupOps d)) = .next t ∧
      t.fault = some .disableWhileBusy := by
  obtain ⟨hres, hue, -⟩ := clearUe_fields s.ue s.te
  have hread := Turn_crRd (s := s.load (uartSetupOps d)) (tmp := .t0) hf hen rfl
  have hft : (crRead .t0 (s.load (uartSetupOps d))).fault = none := by simpa [crRead] using hf
  have hstop := Turn_crWr_of_busy hft (by simpa [crRead] using hen) rfl (by simpa [crRead] using hbusy) hres hue
  exact ⟨_, (run_busMaster_turn 1 hread hf).trans <| (run_busMaster_turn 0 hstop hft).trans (runUnder_zero _ _), rfl⟩

theorem buffers_of_idle (hidle : s.busy = false) : s.tdr = none ∧ s.tsr = none := by
  simpa [State.busy] using hidle

end UartSetup

/-- Settles O48: the end state's block is `run_uartSetup`'s, and a read of BRR returns what is in it. -/
theorem uartSetupEnablesTransmitter : Obligations.UartSetupEnablesTransmitter := by
  refine ⟨by decide, fun s f b d hf hen hidle hd => ?_, fun s d hf hen hbusy => run_uartSetup_of_busy d hf hen hbusy⟩
  have hexpand : (DriverOp.uartSetup f b).expand = some (uartSetupOps d) := by rw [DriverOp.expand, hd]; rfl
  obtain ⟨t, hrun, hsame⟩ := run_uartSetup d ⟨hf, hen, hidle⟩
  obtain ⟨htdr, htsr⟩ := buffers_of_idle hidle
  have hent : t.uartEn = true := (uartEn_congr hsame).trans hen
  obtain ⟨hclk, hpin, hbrr, hue, hte, htdrt, htsrt, hlog, hft⟩ := hsame
  refine ⟨t, hexpand, hrun, hft.trans hf, hue, hte, hbrr, htdrt.trans htdr, htsrt.trans htsr, hlog, hclk, hpin, ?_⟩
  rw [exec_brrRd (hft.trans hf) hent, State.setRdata, show t.brr = d from hbrr]

end Sys2Proof.Proofs

/-! The main loop's family (spec/45_main_loop.md): what the bus master's turn does at a DELAY, then a run of its
iterations, and the statement put together from them. -/

namespace Sys2Proof.Proofs

open Sys2Proof Sys2Proof.Machine Sys2Proof.Safety

/-! ### R140: DELAY -/

section Delay

variable {s : State} {n : Nat}

/-- What `m` iterations of a DELAY make of a state (R140). -/
def spun (m : Nat) (s : State) : State := { s with spin := s.spin + m }

theorem spun_spinOnce (m : Nat) (s : State) : spun m s.spinOnce = spun (m + 1) s := by
  simp only [spun, State.spinOnce, Nat.add_assoc, Nat.add_comm 1]

/-- The bus master's turn at a DELAY is one turn of the control form: no transaction is issued (R140). -/
theorem busStep_delay (hop : s.prog[s.pos]? = some (.delay n)) : busStep s = .next ((BusOp.delay n).control s) := by
  rw [busStep, hop]
  rfl

theorem Turn_delay_iteration (hop : s.prog[s.pos]? = some (.delay n)) (hleft : s.spin < n) :
    Turn .busMaster s s.spinOnce := by
  intro es
  rw [runEvent, busStep_delay (s := { s with events := es }) hop, control_delay, if_pos hleft]
  rfl

theorem Turn_delay_passed (hop : s.prog[s.pos]? = some (.delay n)) (hdone : ¬ s.spin < n) :
    Turn .busMaster s (s.goto (s.pos + 1)) := by
  intro es
  rw [runEvent, busStep_delay (s := { s with events := es }) hop, control_delay, if_neg hdone]
  rfl

/-- While a DELAY has that many iterations left, `m` turns of the bus master are `m` iterations (R140). -/
theorem run_iterations (m k : Nat) (hf : s.fault = none) (hop : s.prog[s.pos]? = some (.delay n))
    (hleft : s.spin + m ≤ n) :
    runUnder (fun _ => .busMaster) (m + k) s = runUnder (fun _ => .busMaster) k (spun m s) := by
  induction m generalizing s with
  | zero => rw [Nat.zero_add]; rfl
  | succ m ih =>
    have hturn := Turn_delay_iteration hop (by omega)
    have hrest : s.spinOnce.spin + m ≤ n := by rw [State.spinOnce_spin]; omega
    rw [Nat.add_right_comm, run_busMaster_turn _ hturn hf, ih (s := s.spinOnce) hf hop hrest, spun_spinOnce]

end Delay

/-- Settles O51: `run_iterations` for the turns at the delay, and one more turn that leaves it. -/
theorem delayIssuesNothing : Obligations.DelayIssuesNothing := by
  intro n s hf
  have hiterations (m k : Nat) (hm : m ≤ n) := run_iterations (s := s.load [.delay n]) m k hf rfl (by simpa using hm)
  have hpassed : Turn .busMaster (spun n (s.load [.delay n])) _ := Turn_delay_passed rfl (by simp [spun])
  refine ⟨?_, fun k hk => ⟨_, (hiterations k 0 hk).trans (runUnder_zero _ _), rfl⟩⟩
  have hrun := (hiterations n 1 le_rfl).trans (run_busMaster_turn 0 hpassed hf)
  exact ⟨_, hrun.trans (runUnder_zero _ _), rfl, SameBlock_refl s, rfl, rfl, rfl, rfl⟩

end Sys2Proof.Proofs

/-! The exceptions' family (spec/60_exceptions.md): an instruction, a transaction and a step each end with FAULT clear
or raise, and the one that raises changes FAULT and nothing else. -/

namespace Sys2Proof.Proofs

open Sys2Proof Sys2Proof.Machine Sys2Proof.Safety

/-! ### R157: what a raise changes -/

section Raise

variable {s t : State}

/-- An instruction that does not raise leaves FAULT as it found it, and it found it clear (R23, R157). -/
theorem exec_raises_or_ends_clear {i : Instr} (h : exec i s = .next t) :
    (∃ r, t = s.setFault r) ∨ t.fault = none := by
  obtain ⟨hclear, -⟩ := exec_next h
  obtain hraise | hsame | ⟨w, -, rfl⟩ | ⟨w, -, rfl⟩ | ⟨w, -, -, -, -, -, rfl⟩ | ⟨w, -, -, rfl⟩ | ⟨w, -, -, rfl⟩ :=
    exec_blockEffect h
  · exact .inl hraise
  · obtain ⟨-, -, -, -, -, -, -, -, hfault⟩ := hsame
    exact .inr (hfault.trans hclear)
  · exact .inr (watchPin_fault.trans hclear)
  · exact .inr (watchPin_fault.trans hclear)
  · exact .inr hclear
  · exact .inr hclear
  · exact .inr hclear

/-- So too for a command word, where the decoder's checks can raise before any instruction runs (R33, R34, R157). -/
theorem transaction_raises_or_ends_clear {c : Command} (h : transaction c s = .next t) :
    (∃ r, t = s.setFault r) ∨ t.fault = none := by
  obtain ⟨i, -, hexec⟩ | ⟨-, r, ht, -⟩ := transaction_next h
  · exact exec_raises_or_ends_clear hexec
  · exact .inl ⟨r, ht⟩

/-- Of the three agents only the bus master raises: a reset and the engine leave FAULT clear (R112, R157, R171). -/
theorem step_raises_or_ends_clear (h : step s = .next t) :
    (∃ r, t = s.tookEvent.setFault r) ∨ t.fault = none := by
  obtain ⟨hclear, ⟨-, rfl⟩ | ⟨-, rfl⟩ | ⟨-, hbus⟩⟩ := step_effect h
  · exact .inr ((State.tookEvent_fault s).trans hclear)
  · obtain ⟨-, -, -, -, -, hfault⟩ := SameRegisters_engineStep s.tookEvent
    exact .inr (hfault.trans ((State.tookEvent_fault s).trans hclear))
  · obtain ⟨hsame, -⟩ | hraise | ⟨op, c, i, x, -, -, -, -, hfx, rfl⟩ := hbus
    · obtain ⟨-, -, -, -, -, -, -, -, hfault⟩ := hsame
      exact .inr (hfault.trans hclear)
    · exact .inl hraise
    · obtain ⟨-, -, -, -, -, -, -, -, hfault⟩ := SameBlock_receive_goto op x (x.pos + 1)
      exact .inr (hfault.trans hfx)

/-- Where FAULT is set behind such an answer, the reason it holds is the one that was raised (R151, R157). -/
theorem eq_setFault_of_fault {r : Reason} (h : (∃ x, t = s.setFault x) ∨ t.fault = none) (hft : t.fault = some r) :
    t = s.setFault r := by
  obtain ⟨x, rfl⟩ | hclear := h
  · rw [Option.some.inj hft]
  · rw [hclear] at hft
    cases hft

end Raise

/-- Settles O19: a transaction or a step whose end has FAULT set has raised. -/
theorem raisingChangesOnlyFault : Obligations.RaisingChangesOnlyFault :=
  ⟨fun _ _ _ _ h => eq_setFault_of_fault (transaction_raises_or_ends_clear h),
    fun _ _ _ h => eq_setFault_of_fault (step_raises_or_ends_clear h)⟩

end Sys2Proof.Proofs

/-! The reset's family (spec/70_reset_and_hazards.md): first the gates and the line behind a reset, what it leaves of
the log and the step that applies it, then the statement, put together from them. -/

namespace Sys2Proof.Proofs

open Sys2Proof Sys2Proof.Machine Sys2Proof.Safety

section Reset

variable {s : State}

/-! ### R171: the gates and the line -/

/-- With CLK at 0 every gate is off (R11). -/
theorem gates_of_clk_zero (h : s.clk = 0) : s.gpioEn = false ∧ s.uartEn = false ∧ s.auxEn = false := by
  simp only [State.gpioEn, State.uartEn, State.auxEn, h]
  exact ⟨BitVec.getLsbD_zero, BitVec.getLsbD_zero, BitVec.getLsbD_zero⟩

/-- With no frame in TSR the line idles (R117). -/
theorem line_of_tsr_none (h : s.tsr = none) : s.line = .idle := by rw [State.line, h]

/-! ### R171, R172: what a reset leaves, and when it comes -/

/-- The log keeps what it held; a frame that the reset cuts goes behind it with its mark cleared, and a byte in TDR
leaves no trace (R171, R172). -/
theorem environmentReset_sameBlock (s : State) : SameBlock s.environmentReset
    { s with
      clk := 0, pin := Config.pinReset, brr := 0, ue := false, te := false, tdr := none, tsr := none,
      txlog := s.txlog ++ (s.tsr.map Frame.spoil).toList } :=
  ⟨rfl, rfl, rfl, rfl, rfl, rfl, rfl, environmentReset_txlog s, environmentReset_fault s⟩

/-- On its turn the environment resets the block, the event used (R170). -/
theorem step_reset (hf : s.fault = none) (he : s.nextEvent = .reset) :
    step s = .next s.tookEvent.environmentReset := by
  rw [step, unlessFaulted_of_none hf, he, runEvent]

end Reset

/-- Settles O41: the block by `environmentReset_sameBlock`, its log by whether TSR holds a frame; with CLK at 0 the
serial gate is off, which freezes the engine and hides the pin. -/
theorem resetEffect : Obligations.ResetEffect := by
  refine ⟨fun s => ?_, fun s => ?_, fun s => step_reset⟩
  · have hsame := environmentReset_sameBlock s
    cases htsr : s.tsr with
    | some f => rwa [htsr] at hsame
    | none => rwa [htsr, Option.map_none, Option.toList_none, List.append_nil] at hsame
  · obtain ⟨hgpio, huart, haux⟩ := gates_of_clk_zero (s := s.environmentReset) rfl
    exact ⟨txe_eq_true.2 (environmentReset_tdr s), hgpio, huart, haux, txLoad_of_uart_off huart,
      txDone_of_uart_off huart, line_of_tsr_none (environmentReset_tsr s), pinVisible_of_uart_off huart⟩

end Sys2Proof.Proofs
